-- ==== Sys2Proof/Word.lean ====
section
/-! DEFINITION. The value types of the block (spec/00_scope.md R8): every value is an unsigned bit vector. -/

namespace Sys2Proof

/-- A controller register word, `P_REG_WIDTH` = 32 bits (R6, R8). -/
abbrev Word := BitVec 32

/-- A data byte on the bus, in TXDR and in RXDR, `P_DATA_BITS` = 8 bits (R6, R8). -/
abbrev Byte := BitVec 8

/-- A slave address, `P_ADDR_BITS` = 7 bits (R6, R36). -/
abbrev Addr7 := BitVec 7

end Sys2Proof
end

