-- ==== Sys2Proof/Config.lean ====
section
/-! DEFINITION. What an implementation fixes (spec/00_scope.md R6, spec/10_state.md R22) and the free values: the slave oracle's
answers, which may depend on the bus events so far (R9, R27), and the choice of the agent that steps next. -/

namespace Sys2Proof.Machine

/-- Transfer direction (R15 RD_WRN, R24 `ctl.rw`): 0 is write, 1 is read. -/
inductive Dir where
  | write
  | read
deriving DecidableEq, Repr

/-- The bus events (R27). -/
inductive BusEvent where
  | start
  | repStart
  | addrByte (a7 : Addr7) (rw : Dir)
  | sAck
  | sNack
  | mWrite (b : Byte)
  | sData (b : Byte)
  | mAck
  | mNack
  | stop
deriving DecidableEq, Repr

/-- The controller registers the engine never accesses (R14, R22): opaque launch values, which no instruction
reads or writes. -/
structure Upstream where
  cr1      : Word
  oar1     : Word
  oar2     : Word
  timingr  : Word
  timeoutr : Word
  icr      : Word
  pecr     : Word
deriving DecidableEq, Repr, Inhabited

end Sys2Proof.Machine

namespace Sys2Proof

open Sys2Proof.Machine (BusEvent Upstream)

/-- The slave's acknowledge bit, `SlaveAck` of R6 and R9. -/
inductive Ack where
  | ack
  | nack
deriving DecidableEq, Repr, Inhabited

/-- The two scheduled agents of R5: the sequencer SEQ (with the caller that feeds it) and the controller CTL. -/
inductive Agent where
  | sequencer
  | controller
deriving DecidableEq, Repr, Inhabited

/-- The name of a slave of `SLAVES` (R6): the two the source names, and any other a platform has. -/
inductive SlaveName where
  | accelerometer
  | magnetometer
  | other (k : Nat)
deriving DecidableEq, Repr

/-- The name of a slave register in `BIND` (R6, R108): those the source names, and any other. -/
inductive RegName where
  | whoAmI
  | ctrl
  | outXL
  | outZH
  | other (k : Nat)
deriving DecidableEq, Repr

/-- The name of a register range in `RANGES` (R6, R109): the one the source names, and any other. -/
inductive RangeName where
  | outXYZ
  | other (k : Nat)
deriving DecidableEq, Repr

/-- One entry of `SLAVES` (R6): a slave and its 7-bit address. -/
structure SlaveEntry where
  slave : SlaveName
  a7    : Addr7
deriving DecidableEq, Repr

/-- One entry of `BIND` (R6, R108): the register `reg` of `slave` lies at `addr`. -/
structure BindEntry where
  slave : SlaveName
  reg   : RegName
  addr  : Byte
deriving DecidableEq, Repr

/-- One entry of `RANGES` (R6, R109): the range of `slave` from register `first` up to, not including, register `last`. Both
names are looked up on the entry's one slave, so no range can have bounds on two slaves (R109). -/
structure RangeEntry where
  slave : SlaveName
  range : RangeName
  first : RegName
  last  : RegName
deriving DecidableEq, Repr

/-- A stretch of host memory: the `size` bytes from `start`. -/
structure MemRegion where
  start : Nat
  size  : Nat
deriving DecidableEq, Repr

/-- What the platform fixes: the OPEN parameters of R6, `P_I2C_BASE`, `SLAVES` (with `ACC_ADDR` and `MAG_ADDR`), `BIND` and
`RANGES`; whether the clock of the controller and the bus pins are configured (R130 LP_CLOCKED); and the host memory that is writable
and the caller's (R130 LP_BUFFER). A partial map is its list of entries, of which the first that matches counts (DESIGN CHOICE, safe:
notes/assumptions/21.md). -/
structure Params where
  base      : Nat
  slaves    : List SlaveEntry
  bind      : List BindEntry
  ranges    : List RangeEntry
  clocked   : Bool
  callerMem : List MemRegion
deriving DecidableEq, Repr

namespace Config

/-- OPEN parameter `SLAVES` of R6, with `ACC_ADDR` and `MAG_ADDR`: no value of it is known (notes/assumptions/10.md). -/
opaque slaves : List SlaveEntry

/-- OPEN parameter `BIND` of R6: no value of it is known (notes/assumptions/10.md). -/
opaque bind : List BindEntry

/-- OPEN parameter `RANGES` of R6: no value of it is known (notes/assumptions/10.md). -/
opaque ranges : List RangeEntry

/-- Whether the clock and the pins are configured at launch (R130): not known (notes/assumptions/19.md). -/
opaque clocked : Bool

/-- The host memory that is writable and the caller's (R28, R130): not known (notes/assumptions/19.md). -/
opaque callerMem : List MemRegion

/-- What the upstream collaborator left in its registers: the opaque launch value of R22, nothing of it is known
(notes/assumptions/2.md). -/
opaque upstream : Upstream

/-- The parameters of the machine: R6's default base, and the OPEN ones (notes/assumptions/10.md). -/
def params : Params :=
  { base := 0x40005400, slaves := slaves, bind := bind, ranges := ranges, clocked := clocked, callerMem := callerMem }

/-- FREE VALUE: the slave's acknowledge of the byte `b` after the bus events `trace`, at the `k`-th free draw (R9 `SlaveAck`;
notes/assumptions/7.md). -/
opaque slaveAck (k : Nat) (trace : List BusEvent) (b : Byte) : Ack

/-- FREE VALUE: the byte the slave returns after the bus events `trace`, at the `k`-th free draw (R9 `SlaveData`;
notes/assumptions/7.md). -/
opaque slaveData (k : Nat) (trace : List BusEvent) : Byte

/-- FREE VALUE: the agent that steps at the `k`-th free choice between two enabled agents (R5, R76; notes/assumptions/8.md). -/
opaque nextAgent (k : Nat) : Agent

end Config
end Sys2Proof
end

