-- ==== Sys2Proof/Syntax.lean ====
section
/-! DEFINITION. The instructions, one constructor per row of spec/opcode_table.json, and the raw requests they are decoded from
(spec/30_encoding.md R56, R58, R62, R63; spec/43_command_admission.md R102). -/

namespace Sys2Proof

/-- The fourteen rows of spec/opcode_table.json. -/
inductive Instr where
  /-- `SINGLE_READ <a7>, <reg>` (R96). -/
  | singleRead (a7 : Addr7) (reg : Byte)
  /-- `SINGLE_WRITE <a7>, <reg>, <val>` (R95). -/
  | singleWrite (a7 : Addr7) (reg val : Byte)
  /-- `BURST_READ <a7>, <reg>, <n>, <buf>, <buflen>` (R97, R58). -/
  | burstRead (a7 : Addr7) (reg n : Byte) (buf buflen : Nat)
  /-- `WR_CR2 <word>` with START = 1 and RD_WRN = 0 (R66). -/
  | wrCr2StartW (v : Word)
  /-- `WR_CR2 <word>` with START = 1 and RD_WRN = 1 (R66). -/
  | wrCr2StartR (v : Word)
  /-- `WR_CR2 <word>` with START = 0 (R67). -/
  | wrCr2NoStart (v : Word)
  /-- `RD_CR2` (R69). -/
  | rdCr2
  /-- `RD_ISR` (R70). -/
  | rdIsr
  /-- `WR_TXDR <byte>` (R71): the whole word written, whose bits 31:8 the access checks. -/
  | wrTxdr (v : Word)
  /-- `RD_TXDR` (R72). -/
  | rdTxdr
  /-- `RD_RXDR` (R73). -/
  | rdRxdr
  /-- `read <Slave>, <Reg>` (R110). -/
  | facadeRead (slave : SlaveName) (reg : RegName)
  /-- `write <Slave>, <Reg>, <val>` (R111). -/
  | facadeWrite (slave : SlaveName) (reg : RegName) (val : Byte)
  /-- `read_all <Slave>, <Range>, <buf>, <buflen>` (R112). -/
  | facadeReadAll (slave : SlaveName) (range : RangeName) (buf buflen : Nat)
deriving DecidableEq, Repr

/-- Whether a register access reads or writes, and what it writes (R9 `RegRead`, `RegWrite`). -/
inductive AccessKind where
  | read
  | write (v : Word)
deriving DecidableEq, Repr

/-- One register access as it stands on the host's bus: an address of the host address space, a width in bits, and its kind
(R9, R35, R41, R65). -/
structure RegAccess where
  addr  : Nat
  width : Nat
  kind  : AccessKind
deriving DecidableEq, Repr

/-- What a caller presents: a command `(w, buf, buflen)` or a facade pseudo-instruction (R102), or a register-access line (R62). -/
inductive Request where
  | command (w : Word) (buf buflen : Nat)
  | access (a : RegAccess)
  | read (slave : SlaveName) (reg : RegName)
  | write (slave : SlaveName) (reg : RegName) (val : Byte)
  | readAll (slave : SlaveName) (range : RangeName) (buf buflen : Nat)
deriving DecidableEq, Repr

end Sys2Proof
end

