-- ==== Sys2Proof/WellFormed.lean ====
section
/-! DEFINITION. Which instructions are terms of their row: the three WR_CR2 rows are told apart by START (bit 13) and RD_WRN (bit
10) of the word they write (spec/40_register_interface.md R66, R67; the masks of spec/opcode_table.json). Every other operand fits its field by
its type. -/

namespace Sys2Proof

/-- `i` is a term of its row of spec/opcode_table.json. -/
def Instr.wf : Instr → Bool
  | .wrCr2StartW v => v.getLsbD 13 && !v.getLsbD 10
  | .wrCr2StartR v => v.getLsbD 13 && v.getLsbD 10
  | .wrCr2NoStart v => !v.getLsbD 13
  | .singleRead _ _ => true
  | .singleWrite _ _ _ => true
  | .burstRead _ _ _ _ _ => true
  | .rdCr2 => true
  | .rdIsr => true
  | .wrTxdr _ => true
  | .rdTxdr => true
  | .rdRxdr => true
  | .facadeRead _ _ => true
  | .facadeWrite _ _ _ => true
  | .facadeReadAll _ _ _ _ => true

end Sys2Proof
end

