-- ==== Sys2Proof/Decode.lean ====
section
/-! DEFINITION. Decoding (spec/30_encoding.md R56, R57; spec/40_register_interface.md R65, R74) and, after it, the encoder. -/

namespace Sys2Proof

/-- What a request decodes to: an instruction, or the name of what is wrong with it. -/
inductive Decoded where
  | instr (i : Instr)
  /-- `Reserved` of R57: rejected at admission with REJ_RESERVED (R59, R104). -/
  | reservedDescriptor
  /-- An access outside R65's table: R_UNSUPPORTED_ACCESS. -/
  | unsupportedAccess
  /-- A write to ISR or RXDR: R_READ_ONLY (R74). -/
  | readOnlyRegister
deriving DecidableEq, Repr

/-- Offset of CR2 (R14). -/
def offCr2 : Nat := 0x04
/-- Offset of ISR (R14). -/
def offIsr : Nat := 0x18
/-- Offset of RXDR (R14). -/
def offRxdr : Nat := 0x24
/-- Offset of TXDR (R14). -/
def offTxdr : Nat := 0x28

/-- A7, bits 6:0 of a descriptor (R56). -/
def descA7 (w : Word) : Addr7 := w.extractLsb' 0 7
/-- REG, bits 15:8 of a descriptor (R56). -/
def descReg (w : Word) : Byte := w.extractLsb' 8 8
/-- ARG, bits 23:16 of a descriptor (R56). -/
def descArg (w : Word) : Byte := w.extractLsb' 16 8
/-- OP, bits 25:24 of a descriptor (R56). -/
def descOp (w : Word) : BitVec 2 := w.extractLsb' 24 2
/-- Bits 31:26 and bit 7 of a descriptor are 0 (R56, R57). -/
def descReservedZero (w : Word) : Bool := w.extractLsb' 26 6 == 0#6 && !w.getLsbD 7

/-- `decode(w)` of R57, with the operands `buf` and `buflen` of R58 for a burst. -/
def decodeDescriptor (w : Word) (buf buflen : Nat) : Decoded :=
  if descReservedZero w then
    if descOp w = 0b00#2 then
      if descArg w = 0#8 then .instr (.singleRead (descA7 w) (descReg w)) else .reservedDescriptor
    else if descOp w = 0b01#2 then .instr (.singleWrite (descA7 w) (descReg w) (descArg w))
    else if descOp w = 0b10#2 then .instr (.burstRead (descA7 w) (descReg w) (descArg w) buf buflen)
    else .reservedDescriptor
  else .reservedDescriptor

/-- START, bit 13 of a CR2 word (spec/10_state.md R15). -/
def startBit (v : Word) : Bool := v.getLsbD 13

/-- RD_WRN, bit 10 of a CR2 word (R15). -/
def rdWrnBit (v : Word) : Bool := v.getLsbD 10

/-- A write of `v` to CR2 is the row of spec/opcode_table.json that START and RD_WRN name (R66, R67). -/
def decodeCr2Write (v : Word) : Instr :=
  if startBit v then if rdWrnBit v then .wrCr2StartR v else .wrCr2StartW v else .wrCr2NoStart v

/-- The read column of R65's table, at offset `off`. -/
def decodeRegRead (off : Nat) : Decoded :=
  if off = offCr2 then .instr .rdCr2
  else if off = offIsr then .instr .rdIsr
  else if off = offRxdr then .instr .rdRxdr
  else if off = offTxdr then .instr .rdTxdr
  else .unsupportedAccess

/-- The write column of R65's table, at offset `off`, and R74. -/
def decodeRegWrite (off : Nat) (v : Word) : Decoded :=
  if off = offCr2 then .instr (decodeCr2Write v)
  else if off = offTxdr then .instr (.wrTxdr v)
  else if off = offIsr then .readOnlyRegister
  else if off = offRxdr then .readOnlyRegister
  else .unsupportedAccess

/-- Access admission (R65): 32 bits wide, at `base + off` for an offset of the table. An offset that is not a multiple of 4 is
none of the table's. An address below `base` has no offset and is refused like every other access (DEDUCED, safe:
notes/assumptions/23.md). -/
def decodeAccess (base : Nat) (a : RegAccess) : Decoded :=
  if a.width = 32 then
    if base ≤ a.addr then
      match a.kind with
      | .read => decodeRegRead (a.addr - base)
      | .write v => decodeRegWrite (a.addr - base) v
    else .unsupportedAccess
  else .unsupportedAccess

/-- Decoding a request, total; `base` is the parameter `P_I2C_BASE` (R35). A facade pseudo-instruction carries names, which
resolve when it runs (R102 step 1). -/
def decode (base : Nat) : Request → Decoded
  | .command w buf buflen => decodeDescriptor w buf buflen
  | .access a => decodeAccess base a
  | .read slave reg => .instr (.facadeRead slave reg)
  | .write slave reg val => .instr (.facadeWrite slave reg val)
  | .readAll slave range buf buflen => .instr (.facadeReadAll slave range buf buflen)

/-- The request that an opcode-table word stands for: a command whose descriptor is `w` and whose operands outside the
descriptor are 0. The table's rows share their words (every row's `match` is also a descriptor): R57 makes a 32-bit word a
descriptor (DEDUCED, safe: notes/assumptions/12.md). -/
def tableRequest (nbits w : Nat) : Request := .command (BitVec.ofNat 32 (w % 2 ^ nbits)) 0 0

/-- The instruction the decoder reads from an opcode-table word. -/
def decodeTableWord (nbits w : Nat) : Option Instr :=
  match decode Config.params.base (tableRequest nbits w) with
  | .instr i => some i
  | .reservedDescriptor => none
  | .unsupportedAccess => none
  | .readOnlyRegister => none

/-- A descriptor word from its fields (R56). -/
def descWord (op : BitVec 2) (arg reg : Byte) (a7 : Addr7) : Word :=
  0#6 ++ op ++ arg ++ reg ++ 0#1 ++ a7

/-- A 32-bit read at offset `off` (R9 `RegRead`). -/
def regReadAt (base off : Nat) : Request := .access ⟨base + off, 32, .read⟩

/-- A 32-bit write of `v` at offset `off` (R9 `RegWrite`). -/
def regWriteAt (base off : Nat) (v : Word) : Request := .access ⟨base + off, 32, .write v⟩

/-- The request that presents `i`, from the same encoding tables. -/
def encode (base : Nat) : Instr → Request
  | .singleRead a7 reg => .command (descWord 0b00#2 0#8 reg a7) 0 0
  | .singleWrite a7 reg val => .command (descWord 0b01#2 val reg a7) 0 0
  | .burstRead a7 reg n buf buflen => .command (descWord 0b10#2 n reg a7) buf buflen
  | .wrCr2StartW v => regWriteAt base offCr2 v
  | .wrCr2StartR v => regWriteAt base offCr2 v
  | .wrCr2NoStart v => regWriteAt base offCr2 v
  | .rdCr2 => regReadAt base offCr2
  | .rdIsr => regReadAt base offIsr
  | .wrTxdr v => regWriteAt base offTxdr v
  | .rdTxdr => regReadAt base offTxdr
  | .rdRxdr => regReadAt base offRxdr
  | .facadeRead slave reg => .read slave reg
  | .facadeWrite slave reg val => .write slave reg val
  | .facadeReadAll slave range buf buflen => .readAll slave range buf buflen

end Sys2Proof
end

