-- ==== Sys2Proof/Machine/State.lean ====
section
/-! DEFINITION. The state of the block, `S = (reg, ctl, seq, trace, mem, faults, refused)` (spec/10_state.md R13), as plain data,
and its value after reset (R32, R129). -/

namespace Sys2Proof.Machine

/-- The bus phases of the controller (R24, R25). `endPhase` is the spec's `End`. -/
inductive Phase where
  | idle
  | addr
  | txNeed
  | txSend
  | rxRecv
  | endPhase
  | tcHold
deriving DecidableEq, Repr

/-- The three shapes (R1, R26 `seq.cmd`). -/
inductive Shape where
  | singleRead
  | singleWrite
  | burstRead
deriving DecidableEq, Repr

/-- Rejection codes (spec/60_exceptions.md R116). -/
inductive RejectCode where
  /-- REJ_RESERVED (R104). -/
  | reserved
  /-- REJ_ZERO_LENGTH (R105). -/
  | zeroLength
  /-- REJ_BUFFER_TOO_SMALL (R106). -/
  | bufferTooSmall
deriving DecidableEq, Repr

/-- Command status (R26 `seq.status`). -/
inductive Status where
  | ready
  | busy
  | done
  | rejected (code : RejectCode)
deriving DecidableEq, Repr

/-- Model faults (R117). An access raises one by marking the state (`State.raise`); the step after the mark stops with it. -/
inductive Fault where
  /-- F_CR2_WHILE_ACTIVE, raised by a CR2 write in a phase other than Idle and TcHold (R68) that nothing refuses (R120). Safe: the
  machine stops where a chip may go on. -/
  | cr2WhileActive
  /-- F_TXDR_NOT_READY, raised by a TXDR write outside phase TxNeed (R71). Safe, as above. -/
  | txdrNotReady
  /-- F_RXDR_EMPTY, raised by an RXDR read while RXNE is 0 (R73). Safe, as above. -/
  | rxdrEmpty
deriving DecidableEq, Repr

/-- Refusal reasons (R118). A form raises one by marking the state (`State.refuse`); the step after the mark stops with it. -/
inductive Refusal where
  /-- R_UNSUPPORTED_ACCESS, of an access outside R65's table. Safe: the machine stops where a chip may go on. -/
  | unsupportedAccess
  /-- R_UNSUPPORTED_CR2_FIELD, of a CR2 write with a bit of CR2_MBZ set (R66, R67). Safe, as above. -/
  | unsupportedCr2Field
  /-- R_ZERO_NBYTES, of a CR2 write with START = 1 and NBYTES = 0, in every phase (R60, R66, R120). Safe, as above. -/
  | zeroNbytes
  /-- R_UNSUPPORTED_TXDR_BITS, of a TXDR write with a bit of 31:8 set (R71). Safe, as above. -/
  | unsupportedTxdrBits
  /-- R_READ_ONLY, of a write to ISR or RXDR (R74). Safe, as above. -/
  | readOnly
  /-- R_UNBOUND_REGISTER, of a facade operation on an unbound register or an unknown slave (R108). Safe: the source rejects it
  when it is compiled. -/
  | unboundRegister
  /-- R_BAD_RANGE, of `read_all` on an unbound or ill-formed range (R109). Safe, as for R_UNBOUND_REGISTER. -/
  | badRange
  /-- R_COMMAND_OVERLAP, of a command presented while one is in progress (R113). Safe: no run of the source does it. -/
  | commandOverlap
  /-- An instruction of the opcode table that has no meaning in this model. No arm of `exec` raises it. Safe: the machine stops. -/
  | notModelled (mnemonic : String)
deriving DecidableEq, Repr

/-- The modelled flags of ISR (R17, R18). Every other bit of the word is the constant 0 (R19), see `Isr.word`. -/
structure Isr where
  txe   : Bool
  txis  : Bool
  rxne  : Bool
  nackf : Bool
  stopf : Bool
  tc    : Bool
  busy  : Bool
deriving DecidableEq, Repr

/-- The register block `reg` (R14 to R22). TXDR and RXDR hold their byte; their bits 31:8 read as 0 (R20, R21). -/
structure Regs where
  cr2      : Word
  isr      : Isr
  txdata   : Byte
  rxdata   : Byte
  upstream : Upstream
deriving DecidableEq, Repr

/-- The controller's hidden state `ctl` (R24). -/
structure Ctl where
  phase   : Phase
  sadd7   : Addr7
  rw      : Dir
  rem     : Byte
  autoend : Bool
  shift   : Byte
deriving DecidableEq, Repr

/-- The sequencer's state `seq` (R26). -/
structure Seq where
  status : Status
  cmd    : Shape
  a7     : Addr7
  reg    : Byte
  val    : Byte
  n      : Byte
  buf    : Nat
  buflen : Nat
  i      : Byte
  result : Option Byte
  pc     : Nat
deriving DecidableEq, Repr

/-- Something the caller has still to present. With `wait` it blocks until the command before it has ended (R141, R142); without,
it presents its request at the very next step, a command in progress or not (R113). A register-access line has no move while a
command is in progress, whichever it says (notes/assumptions/15.md). DESIGN CHOICE, safe: notes/assumptions/9.md. -/
structure Submission where
  request : Request
  wait    : Bool
deriving DecidableEq, Repr

/-- The model's own fields for the environment: the caller's inputs, the slave's answers and the schedule. Answers and choices
fixed in advance are taken first; after them the free values of `Config` are drawn, numbered by `draws` and `picks` (DESIGN
CHOICE, safe: notes/assumptions/7.md, 8.md, 9.md). -/
structure Env where
  inbox : List Submission
  acks  : List Ack
  bytes : List Byte
  draws : Nat
  sched : List Agent
  picks : Nat
deriving DecidableEq, Repr

/-- The state of the block (R13), the parameters of R6, and the model's own fields `reply` (the value the last register-access
line returned; DESIGN CHOICE, safe: notes/assumptions/11.md) and `env`. -/
structure State where
  reg     : Regs
  ctl     : Ctl
  seq     : Seq
  trace   : List BusEvent
  mem     : List Host.Cell
  faults  : List Fault
  refused : Option Refusal
  reply   : Option Word
  env     : Env
  params  : Params
deriving DecidableEq, Repr

/-- The state after reset (R32, R129) of a block with the parameters `p` (R6) and with `u` in the registers the upstream
collaborator left (R22). DESIGN CHOICE: `reply` and `env` (notes/assumptions/7.md, 8.md, 9.md, 11.md). -/
def State.resetWith (p : Params) (u : Upstream) : State :=
  { reg     := { cr2 := 0#32
                 isr := { txe := true, txis := false, rxne := false, nackf := false, stopf := false, tc := false, busy := false }
                 txdata := 0#8
                 rxdata := 0#8
                 upstream := u }
    ctl     := { phase := .idle, sadd7 := 0#7, rw := .write, rem := 0#8, autoend := false, shift := 0#8 }
    seq     := { status := .ready, cmd := .singleRead, a7 := 0#7, reg := 0#8, val := 0#8, n := 0#8, buf := 0, buflen := 0,
                 i := 0#8, result := none, pc := 0 }
    trace   := []
    mem     := []
    faults  := []
    refused := none
    reply   := none
    env     := { inbox := [], acks := [], bytes := [], draws := 0, sched := [], picks := 0 }
    params  := p }

/-- The state after reset, its parameters and the upstream registers those of Config, which fixes no value but the default base
(DESIGN CHOICE, safe: notes/assumptions/2.md, 10.md). -/
def State.reset : State := State.resetWith Config.params Config.upstream

end Sys2Proof.Machine
end

