-- ==== Sys2Proof/Machine/Ops.lean ====
section
/-! DEFINITION. The named operations over the state: memory, the single-field updates, the bus trace, the error outcomes of a
register access and of a command (spec/60_exceptions.md R116 to R118, R121), and the draws of the environment. -/

namespace Sys2Proof.Machine

/-! ### Host memory (spec/10_state.md R28, spec/20_memory.md R39) -/

/-- The byte at host address `a`. An address the block has not written has no known byte: it is the caller's (R32; DESIGN
CHOICE, safe: notes/assumptions/4.md). -/
def Memory.read (m : List Host.Cell) (a : Nat) : Option Byte :=
  match m with
  | [] => none
  | c :: rest => if c.1 = a then some c.2 else Memory.read rest a

/-- `MemWrite(a, 1, b)` of R9: the entry of `a` becomes `b`, the list stays sorted by address. -/
def Memory.write (m : List Host.Cell) (a : Nat) (b : Byte) : List Host.Cell :=
  match m with
  | [] => [(a, b)]
  | c :: rest =>
    if a < c.1 then (a, b) :: c :: rest
    else if a = c.1 then (a, b) :: rest
    else c :: Memory.write rest a b

/-- The canonical form: addresses strictly rising. No entry can equal what an unlisted address reads as, which is no byte. -/
abbrev Memory.wf (m : List Host.Cell) : Prop := m.Pairwise fun c d => c.1 < d.1

/-! ### Single-field updates -/

/-- `CR2 <- v` (R16). -/
def State.setCr2 (s : State) (v : Word) : State := { s with reg := { s.reg with cr2 := v } }

/-- ISR takes the flags `f` (R18). -/
def State.setIsr (s : State) (f : Isr) : State := { s with reg := { s.reg with isr := f } }

/-- `TXDR.TXDATA <- b` (R20). -/
def State.setTxdata (s : State) (b : Byte) : State := { s with reg := { s.reg with txdata := b } }

/-- `RXDR.RXDATA <- b` (R21). -/
def State.setRxdata (s : State) (b : Byte) : State := { s with reg := { s.reg with rxdata := b } }

/-- The controller's state becomes `c` (R24). -/
def State.setCtl (s : State) (c : Ctl) : State := { s with ctl := c }

/-- `ctl.phase <- p` (R25). -/
def State.setPhase (s : State) (p : Phase) : State := s.setCtl { s.ctl with phase := p }

/-- The sequencer's state becomes `q` (R26). -/
def State.setSeq (s : State) (q : Seq) : State := { s with seq := q }

/-- `seq.pc <- k` (R30). -/
def State.setPc (s : State) (k : Nat) : State := s.setSeq { s.seq with pc := k }

/-- `MemWrite(a, 1, b)` (R9, R42: one atomic byte). -/
def State.writeMem (s : State) (a : Nat) (b : Byte) : State := { s with mem := Memory.write s.mem a b }

/-- The value a register-access line returned. -/
def State.setReply (s : State) (v : Word) : State := { s with reply := some v }

/-- The environment becomes `e`. -/
def State.setEnv (s : State) (e : Env) : State := { s with env := e }

/-- `emit(ev)` of R9: the event goes to the end of the trace (R27). -/
def State.emit (s : State) (ev : BusEvent) : State := { s with trace := s.trace ++ [ev] }

/-! ### The error outcomes (R121): the one place where a fault, a refusal or a rejection is entered -/

/-- `raise Fault(f)` of R9: the fault joins the set and nothing else changes (R29, R117). The model takes no further meaning from
the marked state: its next step stops with the fault (DEDUCED, safe: notes/assumptions/5.md). -/
def State.raise (s : State) (f : Fault) : State :=
  { s with faults := if f ∈ s.faults then s.faults else s.faults ++ [f] }

/-- `refuse(r)` of R9: the state is marked refused, with the reason that came first, and nothing else changes (R29, R118). -/
def State.refuse (s : State) (r : Refusal) : State :=
  { s with refused := match s.refused with
                      | none => some r
                      | some r' => some r' }

/-- `raise Reject(c)` of R9: `seq.status <- Rejected(c)` and nothing else (R116; 92 D40). -/
def State.reject (s : State) (c : RejectCode) : State := s.setSeq { s.seq with status := .rejected c }

/-- The number of a rejection code (R116). -/
def rejectValue (c : RejectCode) : Nat :=
  match c with
  | .reserved => 1
  | .zeroLength => 2
  | .bufferTooSmall => 3

/-- What one register access does: it takes effect and returns a value (`Unit` for a write), or it faults, or it is refused. -/
inductive Effect (α : Type) where
  | done (t : State) (v : α)
  | fault (f : Fault)
  | refuse (r : Refusal)

/-- The state after an access begun in `s`: what `k` makes of its effect, or `s` marked (R121). -/
def Effect.commit {α : Type} (e : Effect α) (s : State) (k : State → α → State) : State :=
  match e with
  | .done t v => k t v
  | .fault f => s.raise f
  | .refuse r => s.refuse r

/-! ### The environment's draws (R9) -/

/-- `SlaveAck(trace, b)` of R9: the next answer fixed in advance, else a free value (notes/assumptions/7.md). -/
def State.drawAck (s : State) (b : Byte) : Ack × State :=
  match s.env.acks with
  | a :: rest => (a, s.setEnv { s.env with acks := rest })
  | [] => (Config.slaveAck s.env.draws s.trace b, s.setEnv { s.env with draws := s.env.draws + 1 })

/-- `SlaveData(trace)` of R9: the next byte fixed in advance, else a free value (notes/assumptions/7.md). -/
def State.drawByte (s : State) : Byte × State :=
  match s.env.bytes with
  | b :: rest => (b, s.setEnv { s.env with bytes := rest })
  | [] => (Config.slaveData s.env.draws s.trace, s.setEnv { s.env with draws := s.env.draws + 1 })

/-- Which of two enabled agents steps (R5, R76): the next choice fixed in advance, else a free value (notes/assumptions/8.md). -/
def State.pickAgent (s : State) : Agent × State :=
  match s.env.sched with
  | a :: rest => (a, s.setEnv { s.env with sched := rest })
  | [] => (Config.nextAgent s.env.picks, s.setEnv { s.env with picks := s.env.picks + 1 })

/-! ### What the caller and the claims may ask of a state -/

/-- The controller is quiescent: phase Idle or TcHold (R11, R24). -/
def State.quiescent (s : State) : Bool :=
  match s.ctl.phase with
  | .idle => true
  | .tcHold => true
  | .addr => false
  | .txNeed => false
  | .txSend => false
  | .rxRecv => false
  | .endPhase => false

/-- The byte the caller reads (R142): that of a SINGLE_READ that is Done; at any other time reading it is not admitted and there
is no value (DEDUCED, safe: notes/assumptions/14.md). -/
def State.callerResult (s : State) : Option Byte :=
  match s.seq.status, s.seq.cmd with
  | .done, .singleRead => s.seq.result
  | .done, .singleWrite => none
  | .done, .burstRead => none
  | .ready, _ => none
  | .busy, _ => none
  | .rejected _, _ => none

end Sys2Proof.Machine
end

