-- ==== Sys2Proof/Machine/Operands.lean ====
section
/-! DEFINITION. The operand forms: the fields and the assembly of a CR2 word (spec/30_encoding.md R50, R51), the bus address byte
(R54), the sub-address byte (R55), the data-register words (R53), and the names of the facade (spec/43_command_admission.md
R108, R109). -/

namespace Sys2Proof.Machine

/-! ### CR2 words -/

/-- `CR2_MBZ`: the bits that are 0 in every write the model admits (R50; 90 C6). -/
def cr2Mbz : Word := 0xFD00DB01#32

/-- A write of `v` sets a field the model does not support (R60). -/
def hasUnsupportedField (v : Word) : Bool := v &&& cr2Mbz != 0#32

/-- `SADD[7:1]`, bits 7:1 of a CR2 word (R15, R66). -/
def cr2Sadd7 (v : Word) : Addr7 := v.extractLsb' 1 7

/-- NBYTES, bits 23:16 of a CR2 word (R15). -/
def cr2Nbytes (v : Word) : Byte := v.extractLsb' 16 8

/-- AUTOEND, bit 25 of a CR2 word (R15). -/
def cr2Autoend (v : Word) : Bool := v.getLsbD 25

/-- RD_WRN, bit 10 of a CR2 word, as a direction (R15). -/
def cr2Dir (v : Word) : Dir := if rdWrnBit v then .read else .write

/-- The CR2 word with START, bit 13, cleared (R16, R77). -/
def clearStart (v : Word) : Word := v &&& ~~~(1#32 <<< 13)

/-- The bit of a direction: 0 write, 1 read (R15, R54). -/
def dirBit (d : Dir) : BitVec 1 :=
  match d with
  | .write => 0#1
  | .read => 1#1

/-- `cr2(a7, rw, n, ae)` of R51. -/
def cr2Value (a7 : Addr7) (rw : Dir) (n : Byte) (ae : Bool) : Word :=
  ((BitVec.ofBool ae).setWidth 32 <<< 25) ||| (n.setWidth 32 <<< 16) ||| (1#32 <<< 13)
    ||| ((dirBit rw).setWidth 32 <<< 10) ||| (a7.setWidth 32 <<< 1)

/-! ### Bus bytes and data words -/

/-- The bus address byte `{a7, rw}` (R54). -/
def addressByte (a7 : Addr7) (rw : Dir) : Byte := a7 ++ dirBit rw

/-- `P_AUTOINC` (R6). -/
def autoInc : Byte := 0x80#8

/-- The sub-address byte of a shape (R55; 92 D21). -/
def subAddress (cmd : Shape) (reg : Byte) : Byte :=
  match cmd with
  | .singleRead => reg
  | .singleWrite => reg
  | .burstRead => reg ||| autoInc

/-- Bits 31:8 of a word written to TXDR (R53). -/
def txdrHighBits (v : Word) : BitVec 24 := v.extractLsb' 8 24

/-- The data byte of a register word, bits 7:0 (R53). -/
def dataByte (v : Word) : Byte := v.extractLsb' 0 8

/-- The word a data register of byte `b` reads as: bits 31:8 are 0 (R20, R21, R53). -/
def dataWord (b : Byte) : Word := b.setWidth 32

/-! ### Names of the facade -/

/-- `addr(S)` of R63, through `SLAVES`. -/
def slaveAddr (p : Params) (slave : SlaveName) : Option Addr7 :=
  (p.slaves.find? fun e => decide (e.slave = slave)).map fun e => e.a7

/-- `BIND(S, reg)` (R108). -/
def boundAddr (p : Params) (slave : SlaveName) (reg : RegName) : Option Byte :=
  (p.bind.find? fun e => decide (e.slave = slave) && decide (e.reg = reg)).map fun e => e.addr

/-- `RANGES(S, range)` (R109). -/
def rangeEntry (p : Params) (slave : SlaveName) (range : RangeName) : Option RangeEntry :=
  p.ranges.find? fun e => decide (e.slave = slave) && decide (e.range = range)

/-- The start register and the length of a range on a slave, or none for a range that is unbound, whose bounds are unbound, or
whose end lies below its start (R109). The length is a natural number below 256 (R112), here as the byte count. -/
def rangeSpan (p : Params) (slave : SlaveName) (range : RangeName) : Option (Byte × Byte) :=
  match rangeEntry p slave range with
  | none => none
  | some e =>
    match boundAddr p slave e.first, boundAddr p slave e.last with
    | some a, some b => if a.toNat ≤ b.toNat then some (a, BitVec.ofNat 8 (b.toNat - a.toNat)) else none
    | _, _ => none

end Sys2Proof.Machine
end

