-- ==== Sys2Proof/Machine/Flags.lean ====
section
/-! DEFINITION. The status flags: the ISR word a poll reads (spec/30_encoding.md R52), the flag a WAIT tests (R52, R90), and every
way a flag is set or cleared (spec/10_state.md R18). -/

namespace Sys2Proof.Machine

/-- The ISR word (R52). Every bit but the seven flags is 0: ADDR, TCR, BERR, ARLO, OVR, PECERR, TIMEOUT, ALERT, DIR, ADDCODE and the
reserved bits (R17, R19). -/
def Isr.word (f : Isr) : Word :=
  (BitVec.ofBool f.txe).setWidth 32 ||| ((BitVec.ofBool f.txis).setWidth 32 <<< 1)
    ||| ((BitVec.ofBool f.rxne).setWidth 32 <<< 2) ||| ((BitVec.ofBool f.nackf).setWidth 32 <<< 4)
    ||| ((BitVec.ofBool f.stopf).setWidth 32 <<< 5) ||| ((BitVec.ofBool f.tc).setWidth 32 <<< 6)
    ||| ((BitVec.ofBool f.busy).setWidth 32 <<< 15)

/-- The flags a WAIT may poll (R90). -/
inductive WaitFlag where
  | txis
  | tc
  | rxne
deriving DecidableEq, Repr

/-- The bit of the ISR word a WAIT tests (R52, R90). -/
def flagBit (f : WaitFlag) : Nat :=
  match f with
  | .txis => 1
  | .tc => 6
  | .rxne => 2

/-- `isr[bit(f)]` of R90, on the word a poll reads. -/
def flagSet (f : WaitFlag) (isr : Word) : Bool := isr.getLsbD (flagBit f)

/-- A START from Idle sets BUSY (R66). -/
def Isr.onStart (f : Isr) : Isr := { f with busy := true }

/-- A repeated START clears TC (R66). -/
def Isr.onRepStart (f : Isr) : Isr := { f with tc := false }

/-- A TXDR write clears TXIS and TXE (R71). -/
def Isr.onTxWrite (f : Isr) : Isr := { f with txis := false, txe := false }

/-- An RXDR read clears RXNE (R73). -/
def Isr.onRxRead (f : Isr) : Isr := { f with rxne := false }

/-- An acknowledged byte with bytes left to send sets TXIS (R77, R79). -/
def Isr.onTxReady (f : Isr) : Isr := { f with txis := true }

/-- Taking TXDR into the shift register sets TXE (R79). -/
def Isr.onShift (f : Isr) : Isr := { f with txe := true }

/-- A received byte sets RXNE (R80). -/
def Isr.onReceive (f : Isr) : Isr := { f with rxne := true }

/-- A STOP sets STOPF and clears BUSY (R82). -/
def Isr.onStop (f : Isr) : Isr := { f with stopf := true, busy := false }

/-- The end of a phase without autoend sets TC (R83). -/
def Isr.onComplete (f : Isr) : Isr := { f with tc := true }

/-- A NACK sets NACKF; the STOP that follows it sets STOPF and clears BUSY (R84). -/
def Isr.onNack (f : Isr) : Isr := { f with nackf := true, stopf := true, busy := false }

end Sys2Proof.Machine
end

