-- ==== Sys2Proof/Machine/Controller.lean ====
section
/-! DEFINITION. The controller's steps (spec/41_controller_fsm.md R76 to R84). -/

namespace Sys2Proof.Machine

/-- `nack_stop()` (R84), after the NACK was drawn: `SNack` and `Stop` go out, the bus is free. -/
def State.nackStop (s : State) : State :=
  (((s.emit .sNack).emit .stop).setIsr s.reg.isr.onNack).setPhase .idle

/-- The address byte was acknowledged (R77). -/
def State.addressAcked (s : State) : State :=
  match s.ctl.rw with
  | .write => ((s.emit .sAck).setIsr s.reg.isr.onTxReady).setPhase .txNeed
  | .read => (s.emit .sAck).setPhase .rxRecv

/-- The address step (R77). -/
def addressStep (s : State) : State :=
  let t := (s.emit (.addrByte s.ctl.sadd7 s.ctl.rw)).setCr2 (clearStart s.reg.cr2)
  match t.drawAck (addressByte s.ctl.sadd7 s.ctl.rw) with
  | (.nack, u) => u.nackStop
  | (.ack, u) => u.addressAcked

/-- The data byte was acknowledged (R79): TXIS while bytes remain, else the phase's end. -/
def State.byteAcked (s : State) : State :=
  let left := s.ctl.rem - 1#8
  if left = 0#8 then (s.emit .sAck).setCtl { s.ctl with rem := left, phase := .endPhase }
  else ((s.emit .sAck).setIsr s.reg.isr.onTxReady).setCtl { s.ctl with rem := left, phase := .txNeed }

/-- The transmit step (R79). -/
def transmitStep (s : State) : State :=
  let t := ((s.setCtl { s.ctl with shift := s.reg.txdata }).setIsr s.reg.isr.onShift).emit (.mWrite s.reg.txdata)
  match t.drawAck s.reg.txdata with
  | (.nack, u) => u.nackStop
  | (.ack, u) => u.byteAcked

/-- The receive step (R80): the master acknowledges every byte but the last. -/
def receiveStep (s : State) : State :=
  match s.drawByte with
  | (b, t) =>
    let left := s.ctl.rem - 1#8
    let u := ((t.emit (.sData b)).setRxdata b).setIsr s.reg.isr.onReceive
    if left = 0#8 then (u.emit .mNack).setCtl { s.ctl with rem := left, phase := .endPhase }
    else (u.emit .mAck).setCtl { s.ctl with rem := left }

/-- The end step (R82 with autoend, R83 without). -/
def endStep (s : State) : State :=
  if s.ctl.autoend then ((s.emit .stop).setIsr s.reg.isr.onStop).setPhase .idle
  else (s.setIsr s.reg.isr.onComplete).setPhase .tcHold

/-- The controller's one enabled step, if it has one (R76): none in Idle and TcHold, none in TxNeed (R78), and none in RxRecv while
RXNE is 1 (R81). -/
def controllerStep (s : State) : Option State :=
  match s.ctl.phase with
  | .idle => none
  | .addr => some (addressStep s)
  | .txNeed => none
  | .txSend => some (transmitStep s)
  | .rxRecv => if s.reg.isr.rxne then none else some (receiveStep s)
  | .endPhase => some (endStep s)
  | .tcHold => none

end Sys2Proof.Machine
end

