-- ==== Sys2Proof/Machine/Commands.lean ====
section
/-! DEFINITION. Command admission (spec/43_command_admission.md R102 to R107, R113) and the meanings of the three shapes. An admitted
command then runs one micro-step at a time (Machine/Sequencer.lean), each an atomic step of its own (spec/20_memory.md R42). -/

namespace Sys2Proof.Machine

/-- R102 step 2, R113: a command presented while one is in progress is refused; else `t` is what becomes of it. -/
def unlessBusy (s t : State) : State := if s.seq.status = .busy then s.refuse .commandOverlap else t

/-- The part of R107 every shape shares. -/
def admitted (q : Seq) (cmd : Shape) (a7 : Addr7) (reg : Byte) : Seq :=
  { q with cmd := cmd, a7 := a7, reg := reg, i := 0#8, result := none, pc := 0, status := .busy }

/-- SINGLE_READ at admission (R107). -/
def admitSingleRead (a7 : Addr7) (reg : Byte) (s : State) : State :=
  unlessBusy s (s.setSeq (admitted s.seq .singleRead a7 reg))

/-- SINGLE_WRITE at admission (R107). -/
def admitSingleWrite (a7 : Addr7) (reg val : Byte) (s : State) : State :=
  unlessBusy s (s.setSeq { admitted s.seq .singleWrite a7 reg with val := val })

/-- BURST_READ at admission: the rejections of R105 and R106, in the order of R102, then R107. -/
def admitBurstRead (a7 : Addr7) (reg n : Byte) (buf buflen : Nat) (s : State) : State :=
  unlessBusy s
    (if n = 0#8 then s.reject .zeroLength
     else if buflen < n.toNat then s.reject .bufferTooSmall
     else s.setSeq { admitted s.seq .burstRead a7 reg with n := n, buf := buf, buflen := buflen })

/-- A reserved descriptor at admission (R104). -/
def admitReserved (s : State) : State := unlessBusy s (s.reject .reserved)

/-- `SINGLE_READ <a7>, <reg>` (R96): admission. -/
def execSingleRead (a7 : Addr7) (reg : Byte) (s : State) : Host.Outcome State Fault Refusal :=
  .next (admitSingleRead a7 reg s)

/-- `SINGLE_WRITE <a7>, <reg>, <val>` (R95): admission. -/
def execSingleWrite (a7 : Addr7) (reg val : Byte) (s : State) : Host.Outcome State Fault Refusal :=
  .next (admitSingleWrite a7 reg val s)

/-- `BURST_READ <a7>, <reg>, <n>, <buf>, <buflen>` (R97): admission. -/
def execBurstRead (a7 : Addr7) (reg n : Byte) (buf buflen : Nat) (s : State) : Host.Outcome State Fault Refusal :=
  .next (admitBurstRead a7 reg n buf buflen s)

end Sys2Proof.Machine
end

