-- ==== Sys2Proof/Machine/Facade.lean ====
section
/-! DEFINITION. The facade pseudo-instructions (spec/43_command_admission.md R108 to R112): names resolve first (R102 step 1), then
the command they expand to (spec/30_encoding.md R63) is presented. -/

namespace Sys2Proof.Machine

/-- `read <Slave>, <Reg>` (R110). -/
def execFacadeRead (slave : SlaveName) (reg : RegName) (s : State) : Host.Outcome State Fault Refusal :=
  match slaveAddr s.params slave, boundAddr s.params slave reg with
  | some a7, some r => .next (admitSingleRead a7 r s)
  | _, _ => .next (s.refuse .unboundRegister)

/-- `write <Slave>, <Reg>, <val>` (R111). -/
def execFacadeWrite (slave : SlaveName) (reg : RegName) (val : Byte) (s : State) : Host.Outcome State Fault Refusal :=
  match slaveAddr s.params slave, boundAddr s.params slave reg with
  | some a7, some r => .next (admitSingleWrite a7 r val s)
  | _, _ => .next (s.refuse .unboundRegister)

/-- `read_all <Slave>, <Range>, <buf>, <buflen>` (R112). An unknown slave is refused as R108 says, before the range is looked at
(DEDUCED, safe: notes/assumptions/16.md). -/
def execFacadeReadAll (slave : SlaveName) (range : RangeName) (buf buflen : Nat) (s : State) :
    Host.Outcome State Fault Refusal :=
  match slaveAddr s.params slave with
  | none => .next (s.refuse .unboundRegister)
  | some a7 =>
    match rangeSpan s.params slave range with
    | none => .next (s.refuse .badRange)
    | some (first, len) => .next (admitBurstRead a7 first len buf buflen s)

end Sys2Proof.Machine
end

