-- ==== Sys2Proof/Machine/Registers.lean ====
section
/-! DEFINITION. The register interface (spec/40_register_interface.md R65 to R75): one definition per access, which the
sequencer's micro-steps issue too, and the meanings of the eight register-access rows of spec/opcode_table.json. -/

namespace Sys2Proof.Machine

/-! ### The accesses -/

/-- The accepted START write of R66: CR2 takes `v`, the controller latches the phase, and a START from Idle or a repeated START
from TcHold goes out. -/
def State.beginPhase (s : State) (v : Word) : State :=
  let c : Ctl := { phase := .addr, sadd7 := cr2Sadd7 v, rw := cr2Dir v, rem := cr2Nbytes v, autoend := cr2Autoend v,
                   shift := s.ctl.shift }
  match s.ctl.phase with
  | .idle => (((s.setCr2 v).setCtl c).emit .start).setIsr s.reg.isr.onStart
  | _ => (((s.setCr2 v).setCtl c).emit .repStart).setIsr s.reg.isr.onRepStart

/-- WR_CR2 with START = 1 (R66, R68). Both refusals come before the fault, as R60 and R120 say, where R66's pseudocode has the phase
check between them (DEDUCED, safe: notes/assumptions/24.md). -/
def writeCr2Start (s : State) (v : Word) : Effect Unit :=
  if hasUnsupportedField v then .refuse .unsupportedCr2Field
  else if cr2Nbytes v = 0#8 then .refuse .zeroNbytes
  else if !s.quiescent then .fault .cr2WhileActive
  else .done (s.beginPhase v) ()

/-- WR_CR2 with START = 0 (R67, R68). -/
def writeCr2NoStart (s : State) (v : Word) : Effect Unit :=
  if hasUnsupportedField v then .refuse .unsupportedCr2Field
  else if !s.quiescent then .fault .cr2WhileActive
  else .done (s.setCr2 v) ()

/-- RD_CR2 (R69). -/
def readCr2 (s : State) : Effect Word := .done s s.reg.cr2

/-- RD_ISR (R70). -/
def readIsr (s : State) : Effect Word := .done s s.reg.isr.word

/-- WR_TXDR (R71). Phase TxSend has the byte to be sent in `ctl.shift` (R25), so the write that enters it puts the byte there too,
which R71's pseudocode does not list (DEDUCED, unsafe for claims about `ctl.shift` in TxSend: notes/assumptions/27.md). -/
def writeTxdr (s : State) (v : Word) : Effect Unit :=
  if txdrHighBits v ≠ 0#24 then .refuse .unsupportedTxdrBits
  else if s.ctl.phase ≠ .txNeed then .fault .txdrNotReady
  else .done (((s.setTxdata (dataByte v)).setIsr s.reg.isr.onTxWrite).setCtl { s.ctl with shift := dataByte v, phase := .txSend }) ()

/-- RD_TXDR (R72). -/
def readTxdr (s : State) : Effect Word := .done s (dataWord s.reg.txdata)

/-- RD_RXDR (R73). -/
def readRxdr (s : State) : Effect Word :=
  if s.reg.isr.rxne then .done (s.setIsr s.reg.isr.onRxRead) (dataWord s.reg.rxdata) else .fault .rxdrEmpty

/-! ### The meanings -/

/-- A register-access line that writes: its effect, or the mark of R121. -/
def writeLine (s : State) (e : Effect Unit) : State := e.commit s fun t _ => t

/-- A register-access line that reads: its effect with the value returned, or the mark of R121. -/
def readLine (s : State) (e : Effect Word) : State := e.commit s fun t v => t.setReply v

/-- `WR_CR2 <word>`, START = 1, RD_WRN = 0 (R66). -/
def execWrCr2StartW (v : Word) (s : State) : Host.Outcome State Fault Refusal :=
  .next (writeLine s (writeCr2Start s v))

/-- `WR_CR2 <word>`, START = 1, RD_WRN = 1 (R66). -/
def execWrCr2StartR (v : Word) (s : State) : Host.Outcome State Fault Refusal :=
  .next (writeLine s (writeCr2Start s v))

/-- `WR_CR2 <word>`, START = 0 (R67). -/
def execWrCr2NoStart (v : Word) (s : State) : Host.Outcome State Fault Refusal :=
  .next (writeLine s (writeCr2NoStart s v))

/-- `RD_CR2` (R69). -/
def execRdCr2 (s : State) : Host.Outcome State Fault Refusal := .next (readLine s (readCr2 s))

/-- `RD_ISR` (R70). -/
def execRdIsr (s : State) : Host.Outcome State Fault Refusal := .next (readLine s (readIsr s))

/-- `WR_TXDR <byte>` (R71). -/
def execWrTxdr (v : Word) (s : State) : Host.Outcome State Fault Refusal := .next (writeLine s (writeTxdr s v))

/-- `RD_TXDR` (R72). -/
def execRdTxdr (s : State) : Host.Outcome State Fault Refusal := .next (readLine s (readTxdr s))

/-- `RD_RXDR` (R73). -/
def execRdRxdr (s : State) : Host.Outcome State Fault Refusal := .next (readLine s (readRxdr s))

end Sys2Proof.Machine
end

