-- ==== Sys2Proof/Machine/Dispatch.lean ====
section
/-! DEFINITION. One arm per instruction. -/

namespace Sys2Proof.Machine

/-- The effect of one instruction. -/
def exec (i : Instr) (s : State) : Host.Outcome State Fault Refusal :=
  match i with
  | .singleRead a7 reg => Sys2Proof.Machine.execSingleRead a7 reg s
  | .singleWrite a7 reg val => Sys2Proof.Machine.execSingleWrite a7 reg val s
  | .burstRead a7 reg n buf buflen => Sys2Proof.Machine.execBurstRead a7 reg n buf buflen s
  | .wrCr2StartW v => Sys2Proof.Machine.execWrCr2StartW v s
  | .wrCr2StartR v => Sys2Proof.Machine.execWrCr2StartR v s
  | .wrCr2NoStart v => Sys2Proof.Machine.execWrCr2NoStart v s
  | .rdCr2 => Sys2Proof.Machine.execRdCr2 s
  | .rdIsr => Sys2Proof.Machine.execRdIsr s
  | .wrTxdr v => Sys2Proof.Machine.execWrTxdr v s
  | .rdTxdr => Sys2Proof.Machine.execRdTxdr s
  | .rdRxdr => Sys2Proof.Machine.execRdRxdr s
  | .facadeRead slave reg => Sys2Proof.Machine.execFacadeRead slave reg s
  | .facadeWrite slave reg val => Sys2Proof.Machine.execFacadeWrite slave reg val s
  | .facadeReadAll slave range buf buflen => Sys2Proof.Machine.execFacadeReadAll slave range buf buflen s

end Sys2Proof.Machine
end

