-- ==== Sys2Proof/Machine/Sequencer.lean ====
section
/-! DEFINITION. The transaction sequencer (spec/42_transactions.md R88 to R97): the micro-steps and the three shapes' programs. -/

namespace Sys2Proof.Machine

/-- The destination of RDRX (R92). -/
inductive RxDest where
  | result
  | buffer
deriving DecidableEq, Repr

/-- The micro-steps (R89 to R93). `wrCr2Burst` is the WRCR2 of R97's pc 4, which also clears `seq.i`. -/
inductive Micro where
  | wrCr2 (v : Word)
  | wrCr2Burst (v : Word)
  | wait (f : WaitFlag)
  | wrTx (b : Byte)
  | rdRx (dst : RxDest)
  | done
deriving DecidableEq, Repr

/-- The program of the current shape with its operands (R95, R96, R97). -/
def program (q : Seq) : List Micro :=
  match q.cmd with
  | .singleWrite =>
    [.wrCr2 (cr2Value q.a7 .write 2#8 false), .wait .txis, .wrTx (subAddress q.cmd q.reg), .wait .txis, .wrTx q.val, .wait .tc,
     .done]
  | .singleRead =>
    [.wrCr2 (cr2Value q.a7 .write 1#8 false), .wait .txis, .wrTx (subAddress q.cmd q.reg), .wait .tc,
     .wrCr2 (cr2Value q.a7 .read 1#8 true), .wait .rxne, .rdRx .result, .done]
  | .burstRead =>
    [.wrCr2 (cr2Value q.a7 .write 1#8 false), .wait .txis, .wrTx (subAddress q.cmd q.reg), .wait .tc,
     .wrCr2Burst (cr2Value q.a7 .read q.n true), .wait .rxne, .rdRx .buffer, .done]

/-- WRCR2 (R89). A faulted or refused access leaves `seq.pc` where it is. -/
def microWrCr2 (s : State) (v : Word) : State :=
  (writeCr2Start s v).commit s fun t _ => t.setPc (s.seq.pc + 1)

/-- WRCR2 and `seq.i <- 0`, the pc 4 of a burst (R97). -/
def microWrCr2Burst (s : State) (v : Word) : State :=
  (writeCr2Start s v).commit s fun t _ => t.setSeq { t.seq with i := 0#8, pc := s.seq.pc + 1 }

/-- WAIT (R90). -/
def microWait (s : State) (f : WaitFlag) : State :=
  (readIsr s).commit s fun t isr => if flagSet f isr then t.setPc (s.seq.pc + 1) else t.setPc s.seq.pc

/-- WRTX (R91). -/
def microWrTx (s : State) (b : Byte) : State :=
  (writeTxdr s (dataWord b)).commit s fun t _ => t.setPc (s.seq.pc + 1)

/-- RDRX to the result (R92). -/
def microRdRxResult (s : State) : State :=
  (readRxdr s).commit s fun t v => t.setSeq { t.seq with result := some (dataByte v), pc := s.seq.pc + 1 }

/-- RDRX to the buffer (R92): the byte goes to `buf + i` before `i` grows, and the loop goes back to its WAIT while bytes are
missing. -/
def microRdRxBuffer (s : State) : State :=
  (readRxdr s).commit s fun t v =>
    let next := s.seq.i + 1#8
    (t.writeMem (s.seq.buf + s.seq.i.toNat) (dataByte v)).setSeq
      { t.seq with i := next, pc := if next.toNat < s.seq.n.toNat then s.seq.pc - 1 else s.seq.pc + 1 }

/-- The micro-step `m`, or none while DONE holds (R93). -/
def microStep (m : Micro) (s : State) : Option State :=
  match m with
  | .wrCr2 v => some (microWrCr2 s v)
  | .wrCr2Burst v => some (microWrCr2Burst s v)
  | .wait f => some (microWait s f)
  | .wrTx b => some (microWrTx s b)
  | .rdRx .result => some (microRdRxResult s)
  | .rdRx .buffer => some (microRdRxBuffer s)
  | .done => if s.quiescent then some (s.setSeq { s.seq with status := .done }) else none

/-- The micro-step at `seq.pc`. The programs end before index 8, and no run leaves them (R30); at an index past the end there is
none (DESIGN CHOICE, safe: notes/assumptions/17.md). -/
def currentMicro (s : State) : Option Micro := (program s.seq)[s.seq.pc]?

/-- The sequencer's one enabled step while a command is in progress (R88). -/
def sequencerStep (s : State) : Option State :=
  match s.seq.status with
  | .busy =>
    match currentMicro s with
    | some m => microStep m s
    | none => none
  | .ready => none
  | .done => none
  | .rejected _ => none

end Sys2Proof.Machine
end

