-- ==== Sys2Proof/Machine/Schedule.lean ====
section
/-! DEFINITION. What one step of the machine does: the caller's next request (spec/70_reset_and_hazards.md R141, R142), a step of the
sequencer (spec/42_transactions.md R88) or a step of the controller (spec/41_controller_fsm.md R76), and how one is chosen
(spec/00_scope.md R5, R10). -/

namespace Sys2Proof.Machine

/-- Running a request: decoded and executed, or what R65, R74 and R104 say of one that is no instruction. -/
def runRequest (r : Request) (s : State) : Host.Outcome State Fault Refusal :=
  match decode s.params.base r with
  | .instr i => exec i s
  | .reservedDescriptor => .next (admitReserved s)
  | .unsupportedAccess => .next (s.refuse .unsupportedAccess)
  | .readOnlyRegister => .next (s.refuse .readOnly)

/-- The caller presents the request at the head of its list. -/
def present (s : State) : Host.Outcome State Fault Refusal :=
  match s.env.inbox with
  | [] => .next s
  | x :: rest => runRequest x.request (s.setEnv { s.env with inbox := rest })

/-- The request is a register-access line (spec/30_encoding.md R62). -/
def isAccess (r : Request) : Bool :=
  match r with
  | .access _ => true
  | .command _ _ _ => false
  | .read _ _ => false
  | .write _ _ _ => false
  | .readAll _ _ _ _ => false

/-- The caller presents its next request at once, a command in progress or not (R113). A register-access line has no move while a
command is in progress: the register block is the sequencer's then (R5, R124, R142), so the line is held back. -/
def urgent (s : State) : Bool :=
  match s.env.inbox with
  | [] => false
  | x :: _ => !x.wait && !(isAccess x.request && decide (s.seq.status = .busy))

/-- The program side has a step: an urgent request; while a command is in progress the sequencer's (R88); else the caller's next
request, held back until the command before it has ended (R113, R141). -/
def engineEnabled (s : State) : Bool :=
  urgent s || if s.seq.status = .busy then (sequencerStep s).isSome else !s.env.inbox.isEmpty

/-- That step. -/
def engineMove (s : State) : Host.Outcome State Fault Refusal :=
  if urgent s then present s
  else if s.seq.status = .busy then
    match sequencerStep s with
    | some t => .next t
    | none => .next s
  else present s

/-- The controller's step. -/
def controllerMove (s : State) : Host.Outcome State Fault Refusal :=
  match controllerStep s with
  | some t => .next t
  | none => .next s

/-- The agent that moves, if one has a step, and the state with the schedule's choice taken where both have one (R5, R76). An urgent
request goes first. -/
def nextMover (s : State) : Option Agent × State :=
  if urgent s then (some .sequencer, s)
  else
    match engineEnabled s, (controllerStep s).isSome with
    | false, false => (none, s)
    | true, false => (some .sequencer, s)
    | false, true => (some .controller, s)
    | true, true => (some s.pickAgent.1, s.pickAgent.2)

/-- One move of a state that carries no mark. When no agent has a step the machine holds: the state stays as it is (R10; DESIGN
CHOICE, safe: notes/assumptions/6.md). -/
def move (s : State) : Host.Outcome State Fault Refusal :=
  match nextMover s with
  | (none, t) => .next t
  | (some .sequencer, t) => engineMove t
  | (some .controller, t) => controllerMove t

/-- One step: a marked state gives no further meaning (R121), any other moves. -/
def advance (s : State) : Host.Outcome State Fault Refusal :=
  match s.faults with
  | f :: _ => .fault f
  | [] =>
    match s.refused with
    | some r => .refused r
    | none => move s

/-- The caller presents `r` at the very next step. -/
def State.placeRequest (s : State) (r : Request) : State :=
  s.setEnv { s.env with inbox := ⟨r, false⟩ :: s.env.inbox }

end Sys2Proof.Machine
end

