-- ==== Sys2Proof/Machine/Step.lean ====
section
/-! DEFINITION. The step function, and how an opcode-table word comes to be the next thing the machine runs. -/

namespace Sys2Proof.Machine

/-- One step of the machine (spec/00_scope.md R10). -/
def step (s : State) : Host.Outcome State Fault Refusal := advance s

/-- The word `w` as the request the caller presents at the very next step (notes/assumptions/9.md, 12.md). -/
def State.withFetchWord (s : State) (nbits w : Nat) : State := s.placeRequest (tableRequest nbits w)

end Sys2Proof.Machine
end

