-- ==== Sys2Proof/Safety.lean ====
section
/-! DEFINITION. The terms claims use: marks, the launch premises, the end and the stall of a command, the end and the final
observation of a program, runs and weak fairness, and the invariants of the block (spec/41_controller_fsm.md R86, R87;
spec/42_transactions.md R98, R99; spec/70_reset_and_hazards.md R130, R139, R140, R141). -/

namespace Sys2Proof.Machine

/-! ### Marks, launch, end, stall -/

/-- The state carries no mark (R29). -/
abbrev State.unmarked (s : State) : Prop := s.faults = [] ∧ s.refused = none

/-- LP_CLOCKED of R130: a fact about the platform. -/
abbrev State.lpClocked (s : State) : Prop := s.params.clocked = true

/-! R22 leaves the field layouts of CR1, OAR1, OAR2, TIMINGR and TIMEOUTR out; the three premises below read them by the layout of the
STM32F3 I2C family (PRESUMED, unsafe: notes/assumptions/26.md). -/

/-- LP_ENABLED of R130: PE, bit 0 of CR1, is set, and TIMINGR no longer holds the family's reset value 0. -/
abbrev State.lpEnabled (s : State) : Prop := s.reg.upstream.cr1.getLsbD 0 = true ∧ s.reg.upstream.timingr ≠ 0#32

/-- LP_MASTER7 of R130: no 10-bit addressing (ADD10, bit 11 of CR2, R15); OA1EN and OA2EN, bit 15 of OAR1 and of OAR2, are 0; SMBHEN,
SMBDEN, ALERTEN and PECEN, bits 20 to 23 of CR1, are 0; TIMOUTEN and TEXTEN, bits 15 and 31 of TIMEOUTR, are 0. -/
abbrev State.lpMaster7 (s : State) : Prop :=
  s.reg.cr2.getLsbD 11 = false ∧ s.reg.upstream.oar1.getLsbD 15 = false ∧ s.reg.upstream.oar2.getLsbD 15 = false ∧
  s.reg.upstream.cr1.extractLsb' 20 4 = 0#4 ∧ s.reg.upstream.timeoutr.getLsbD 15 = false ∧
  s.reg.upstream.timeoutr.getLsbD 31 = false

/-- LP_NO_IRQ of R130: the interrupt enables TXIE, RXIE, ADDRIE, NACKIE, STOPIE, TCIE and ERRIE, bits 1 to 7 of CR1, are 0. -/
abbrev State.lpNoIrq (s : State) : Prop := s.reg.upstream.cr1.extractLsb' 1 7 = 0#7

/-- The premises of R130 that the upstream collaborator meets once and for all, before the first command (R131). -/
def State.lpUpstream (s : State) : Prop := s.lpClocked ∧ s.lpEnabled ∧ s.lpMaster7 ∧ s.lpNoIrq

/-- LP_BUS_IDLE of R130. -/
abbrev State.lpBusIdle (s : State) : Prop := s.ctl.phase = .idle ∧ s.reg.isr = State.reset.reg.isr

/-- LP_CLEAN of R130. -/
abbrev State.lpClean (s : State) : Prop := s.unmarked ∧ s.seq.status = .ready

/-- The host address `a` is one of the register block's: eleven words from its base (R14, R35). -/
def inRegisterBlock (base a : Nat) : Prop := base ≤ a ∧ a < base + 0x2C

/-- The host address `a` is writable memory of the caller (R28). -/
def inCallerMem (p : Params) (a : Nat) : Prop := ∃ r ∈ p.callerMem, r.start ≤ a ∧ a < r.start + r.size

/-- LP_BUFFER of R130: each of the `buflen` bytes from `buf` is writable memory of the caller, and none is the register block's. That
the caller owns them for the command needs no more: nothing but the burst writes host memory (R28, R142). -/
def lpBuffer (p : Params) (buf buflen : Nat) : Prop :=
  ∀ a, buf ≤ a → a < buf + buflen → inCallerMem p a ∧ ¬ inRegisterBlock p.base a

/-- LP_BUFFER of a request: of a BURST_READ, and of a `read_all`, which expands to one. -/
def requestLpBuffer (p : Params) (r : Request) : Prop :=
  match r with
  | .command w buf buflen =>
    (∃ a7 reg n, decodeDescriptor w buf buflen = .instr (.burstRead a7 reg n buf buflen)) → lpBuffer p buf buflen
  | .readAll _ _ buf buflen => lpBuffer p buf buflen
  | .access _ => True
  | .read _ _ => True
  | .write _ _ _ => True

/-- LP_BUFFER of R130 for every BURST_READ: those the caller has still to present, and the one in progress, whose buffer admission
found long enough (R106). -/
def State.lpBuffers (s : State) : Prop :=
  (∀ x ∈ s.env.inbox, requestLpBuffer s.params x.request) ∧
  (s.seq.status = .busy → s.seq.cmd = .burstRead →
    s.seq.n.toNat ≤ s.seq.buflen ∧ lpBuffer s.params s.seq.buf s.seq.buflen)

/-- The launch premises of R130. LP_STABLE_BASE and LP_IN_ORDER are built into the step: no step changes `params`, and each access
is one step, in program order (notes/assumptions/19.md). -/
def State.launch (s : State) : Prop := s.lpUpstream ∧ s.lpBusIdle ∧ s.lpClean ∧ s.lpBuffers

/-- No byte of the register block stands in host memory: no burst has written one. -/
def State.blockUntouched (s : State) : Prop := ∀ a, inRegisterBlock s.params.base a → Memory.read s.mem a = none

/-- The command has ended (R140). -/
abbrev State.ended (s : State) : Prop :=
  s.unmarked ∧ (s.seq.status = .done ∨ ∃ c, s.seq.status = .rejected c)

/-- What a NACK leaves (R84, R99): the controller Idle, NACKF and STOPF set, the trace ending in `SNack, Stop`. -/
def State.nacked (s : State) : Prop :=
  s.ctl.phase = .idle ∧ s.reg.isr.nackf = true ∧ s.reg.isr.stopf = true ∧ ∃ before, s.trace = before ++ [.sNack, .stop]

/-- The command has stalled at the WAIT for `f` (R99, R119): the sequencer polls a flag that is 0, after a NACK. -/
def State.stalledAt (s : State) (f : WaitFlag) : Prop :=
  s.seq.status = .busy ∧ currentMicro s = some (.wait f) ∧ flagSet f s.reg.isr.word = false ∧ s.nacked

/-! ### Programs (R141) -/

/-- A program: its commands, each presented after the one before it has ended. -/
def State.loadProgram (s : State) (cmds : List Request) : State :=
  s.setEnv { s.env with inbox := cmds.map fun r => ⟨r, true⟩ }

/-- The program has ended: nothing is left to present and its last command has ended. R141 does not say when a program of no commands
has ended; here the status from before it counts (DESIGN CHOICE, unsafe for claims about such a program:
notes/assumptions/25.md). -/
def State.programEnded (s : State) : Prop := s.env.inbox = [] ∧ s.ended

/-- What the caller gets back for a command: `seq.status` at its end, and `seq.result` of a SINGLE_READ that is Done (R142). -/
structure CommandEnd where
  status : Status
  result : Option Byte
deriving DecidableEq, Repr

/-- The step from `s` to `t` presented a command or a facade operation. -/
def presentsCommand (s t : State) : Bool :=
  match s.env.inbox with
  | [] => false
  | x :: rest => !isAccess x.request && decide (t.env.inbox = rest)

/-- The end of a command that the step from `s` to `t` is, if it is one (R140): the command in progress is Done, or the command
presented is rejected. A marked state is never an end. -/
def commandEnd (s t : State) : Option CommandEnd :=
  if t.unmarked then
    match s.seq.status, t.seq.status with
    | .busy, .done => some ⟨.done, t.callerResult⟩
    | .busy, _ => none
    | _, .rejected c => if presentsCommand s t then some ⟨.rejected c, none⟩ else none
    | _, _ => none
  else none

/-- The state after `k` steps, and the ends of the commands that ended on the way, in order; none where the machine stops. -/
def runEnds : Nat → State → Option (State × List CommandEnd)
  | 0, s => some (s, [])
  | k + 1, s =>
    match step s with
    | .next t => (runEnds k t).map fun u => (u.1, (commandEnd s t).toList ++ u.2)
    | .fault _ => none
    | .refused _ => none

/-- The final observation of R141; `ends` holds `seq.status` of each command and `seq.result` of each SINGLE_READ. -/
structure Observation where
  reg   : Regs
  ctl   : Ctl
  trace : List BusEvent
  mem   : List Host.Cell
  ends  : List CommandEnd
deriving DecidableEq, Repr

/-- From `s` the program ends within `k` steps with the final observation `o`. -/
def observes (k : Nat) (s : State) (o : Observation) : Prop :=
  ∃ t ends, runEnds k s = some (t, ends) ∧ t.programEnded ∧ o = ⟨t.reg, t.ctl, t.trace, t.mem, ends⟩

/-! ### Runs and weak fairness (R139) -/

/-- An infinite run: every state of it steps to the next. -/
def isRun (r : Nat → State) : Prop := ∀ k, step (r k) = .next (r (k + 1))

/-- The agent has an enabled step. -/
def hasStep (a : Agent) (s : State) : Prop :=
  match a with
  | .sequencer => engineEnabled s = true
  | .controller => (controllerStep s).isSome = true

/-- The machine's step is that agent's. -/
def takesStep (a : Agent) (s : State) : Prop := (nextMover s).1 = some a

/-- Weak fairness (R139): an agent that has a step continuously takes one eventually. -/
def weaklyFair (r : Nat → State) : Prop :=
  ∀ a k, (∀ j, k ≤ j → hasStep a (r j)) → ∃ j, k ≤ j ∧ takesStep a (r j)

/-- The slave acknowledges every byte of the run: no `SNack` joins the trace. -/
def allAcknowledged (r : Nat → State) : Prop := ∀ k, (r k).trace.count .sNack = (r 0).trace.count .sNack

/-! ### Phase and flag invariants (R87) and the stored forms -/

/-- The six items of R87. -/
structure PhaseFlags (s : State) : Prop where
  busy  : s.reg.isr.busy = false ↔ s.ctl.phase = .idle
  tc    : s.reg.isr.tc = true ↔ s.ctl.phase = .tcHold
  txis  : s.reg.isr.txis = true ↔ s.ctl.phase = .txNeed
  txe   : s.reg.isr.txe = false ↔ s.ctl.phase = .txSend
  start : startBit s.reg.cr2 = true ↔ s.ctl.phase = .addr
  rem   : s.ctl.phase = .addr ∨ s.ctl.phase = .txNeed ∨ s.ctl.phase = .txSend ∨ s.ctl.phase = .rxRecv → s.ctl.rem ≠ 0#8

/-- The invariant of the block: R87; in TxSend the byte to be sent is in `ctl.shift` (R25) and in TXDR (R79); the bits of CR2 that no
admitted write sets read as 0 (R15, R60); host memory and the fault set keep their forms (R28, R29). -/
structure State.Inv (s : State) : Prop where
  flags  : PhaseFlags s
  shift  : s.ctl.phase = .txSend → s.ctl.shift = s.reg.txdata
  cr2    : s.reg.cr2 &&& cr2Mbz = 0#32
  mem    : Memory.wf s.mem
  faults : s.faults.Nodup

/-! ### The bus trace grammar (R86) -/

/-- Where a trace stands in the grammar of R86. The number counts the phase's data bytes that are sent or received. -/
inductive BusPos where
  /-- The bus is free: nothing yet, or a `Stop`. -/
  | free
  /-- After the opener. -/
  | opened
  /-- After the address byte. -/
  | addressed (rw : Dir)
  /-- A write phase, `k` bytes sent and acknowledged. -/
  | writing (k : Nat)
  /-- A write phase, the byte after `k` acknowledged ones is out. -/
  | sent (k : Nat)
  /-- A read phase, `k` bytes received and acknowledged. -/
  | reading (k : Nat)
  /-- A read phase, the `k`-th byte received, the master's answer outstanding. -/
  | got (k : Nat)
  /-- A read phase whose `k`-th byte, its last, the master did not acknowledge. -/
  | last (k : Nat)
  /-- After the slave's NACK: `Stop` follows. -/
  | nacked
deriving DecidableEq, Repr

/-- The grammar of R86, event by event: none where the event may not stand. -/
def busNext (p : BusPos) (ev : BusEvent) : Option BusPos :=
  match p, ev with
  | .free, .start => some .opened
  | .opened, .addrByte _ rw => some (.addressed rw)
  | .addressed _, .sNack => some .nacked
  | .addressed .write, .sAck => some (.writing 0)
  | .addressed .read, .sAck => some (.reading 0)
  | .writing k, .mWrite _ => some (.sent k)
  | .sent k, .sAck => some (.writing (k + 1))
  | .sent _, .sNack => some .nacked
  | .writing (_ + 1), .stop => some .free
  | .writing (_ + 1), .repStart => some .opened
  | .reading k, .sData _ => some (.got (k + 1))
  | .got k, .mAck => some (.reading k)
  | .got k, .mNack => some (.last k)
  | .last _, .stop => some .free
  | .last _, .repStart => some .opened
  | .nacked, .stop => some .free
  | _, _ => none

/-- `busNext` from a position that may already be none. -/
def busAfter (p : Option BusPos) (ev : BusEvent) : Option BusPos := p.bind fun q => busNext q ev

/-- Where a whole trace stands, or none for a trace the grammar does not have. -/
def busPos (trace : List BusEvent) : Option BusPos := trace.foldl busAfter (some .free)

/-- The position the controller's phase stands for, `n` being the NBYTES of the phase (R86): a phase that ends has sent or received
exactly `n` bytes. -/
def phasePos (c : Ctl) (n : Nat) (p : BusPos) : Prop :=
  match c.phase with
  | .idle => p = .free
  | .addr => p = .opened ∧ c.rem.toNat = n
  | .txNeed => c.rw = .write ∧ ∃ k, p = .writing k ∧ k + c.rem.toNat = n
  | .txSend => c.rw = .write ∧ ∃ k, p = .writing k ∧ k + c.rem.toNat = n
  | .rxRecv => c.rw = .read ∧ ∃ k, p = .reading k ∧ k + c.rem.toNat = n
  | .endPhase => 0 < n ∧ (c.rw = .write ∧ p = .writing n ∨ c.rw = .read ∧ p = .last n)
  | .tcHold => ∃ k, 0 < k ∧ (p = .writing k ∨ p = .last k)

/-- The trace is one of the grammar's, at the position the controller's phase stands for, with NBYTES the stored count (R16). -/
def State.onGrammar (s : State) : Prop :=
  ∃ p, busPos s.trace = some p ∧ phasePos s.ctl (cr2Nbytes s.reg.cr2).toNat p

/-! ### The engine's own programs (R117, R133 to R136) -/

/-- What the caller has still to present are commands and facade operations (R142). -/
def State.onlyCommands (s : State) : Prop := ∀ x ∈ s.env.inbox, ∀ a, x.request ≠ .access a

/-- The bytes the read phase of a command transfers (R96, R97). -/
def readTotal (q : Seq) : Nat :=
  match q.cmd with
  | .burstRead => q.n.toNat
  | .singleRead => 1
  | .singleWrite => 1

/-- A write phase of the engine with `left` bytes to go: no autoend (R94). -/
def writeLeft (c : Ctl) (left : Nat) : Prop := c.rw = .write ∧ c.autoend = false ∧ c.rem.toNat = left

/-- A read phase of the engine: autoend (R96, R97). -/
def readPhase (c : Ctl) : Prop := c.rw = .read ∧ c.autoend = true

/-- 1 when a received byte waits in RXDR, else 0. -/
def waiting (s : State) : Nat := if s.reg.isr.rxne then 1 else 0

/-- Where the controller can be at each index of SINGLE_WRITE (R95, R99). -/
def writeCoupling (s : State) : Prop :=
  match s.seq.pc with
  | 0 => s.quiescent = true
  | 1 => (s.ctl.phase = .addr ∨ s.ctl.phase = .txNeed) ∧ writeLeft s.ctl 2 ∨ s.nacked
  | 2 => s.ctl.phase = .txNeed ∧ writeLeft s.ctl 2
  | 3 => s.ctl.phase = .txSend ∧ writeLeft s.ctl 2 ∨ s.ctl.phase = .txNeed ∧ writeLeft s.ctl 1 ∨ s.nacked
  | 4 => s.ctl.phase = .txNeed ∧ writeLeft s.ctl 1
  | 5 => s.ctl.phase = .txSend ∧ writeLeft s.ctl 1 ∨ s.ctl.phase = .endPhase ∧ writeLeft s.ctl 0 ∨ s.ctl.phase = .tcHold
          ∨ s.nacked
  | 6 => s.ctl.phase = .tcHold
  | _ => False

/-- Where the controller can be at each index of the two reads (R96, R97, R99). -/
def readCoupling (s : State) : Prop :=
  match s.seq.pc with
  | 0 => s.quiescent = true
  | 1 => (s.ctl.phase = .addr ∨ s.ctl.phase = .txNeed) ∧ writeLeft s.ctl 1 ∨ s.nacked
  | 2 => s.ctl.phase = .txNeed ∧ writeLeft s.ctl 1
  | 3 => s.ctl.phase = .txSend ∧ writeLeft s.ctl 1 ∨ s.ctl.phase = .endPhase ∧ writeLeft s.ctl 0 ∨ s.ctl.phase = .tcHold
          ∨ s.nacked
  | 4 => s.ctl.phase = .tcHold
  | 5 =>
    (s.ctl.phase = .addr ∨ s.ctl.phase = .rxRecv) ∧ readPhase s.ctl ∧ s.ctl.rem.toNat + waiting s + s.seq.i.toNat = readTotal s.seq
      ∧ (s.ctl.phase = .addr → s.reg.isr.rxne = false ∧ s.seq.i = 0#8)
    ∨ s.ctl.phase = .endPhase ∧ readPhase s.ctl ∧ s.reg.isr.rxne = true ∧ s.seq.i.toNat + 1 = readTotal s.seq
    ∨ s.ctl.phase = .idle ∧ s.reg.isr.rxne = true ∧ s.seq.i.toNat + 1 = readTotal s.seq
    ∨ s.nacked ∧ s.reg.isr.rxne = false ∧ s.seq.i = 0#8
  | 6 =>
    s.reg.isr.rxne = true ∧
      (s.ctl.phase = .rxRecv ∧ readPhase s.ctl ∧ s.ctl.rem.toNat + 1 + s.seq.i.toNat = readTotal s.seq
        ∨ (s.ctl.phase = .endPhase ∧ readPhase s.ctl ∨ s.ctl.phase = .idle) ∧ s.seq.i.toNat + 1 = readTotal s.seq)
  | 7 => s.reg.isr.rxne = false ∧ (s.ctl.phase = .endPhase ∧ readPhase s.ctl ∨ s.ctl.phase = .idle)
  | _ => False

/-- Where the controller can be while the sequencer runs a command, and where it is between commands. -/
def engineCoupling (s : State) : Prop :=
  match s.seq.status with
  | .busy =>
    (match s.seq.cmd with
      | .singleWrite => writeCoupling s ∧ s.reg.isr.rxne = false
      | .singleRead => readCoupling s ∧ s.seq.i = 0#8
      | .burstRead => readCoupling s ∧ s.seq.n ≠ 0#8)
    ∧ (s.seq.pc < 5 → s.reg.isr.rxne = false ∧ s.seq.i = 0#8)
  | .ready => s.quiescent = true ∧ s.reg.isr.rxne = false
  | .done => s.quiescent = true ∧ s.reg.isr.rxne = false
  | .rejected _ => s.quiescent = true ∧ s.reg.isr.rxne = false

/-- The invariant of a machine that is given commands only: no fault, and the sequencer and the controller in step. -/
structure State.EngineInv (s : State) : Prop where
  inv      : s.Inv
  commands : s.onlyCommands
  noFault  : s.faults = []
  coupling : engineCoupling s

/-! ### The work a command has left (R139, R140) -/

/-- Controller steps and TXDR writes a phase has left, at most. -/
def controllerWork (c : Ctl) : Nat :=
  match c.phase with
  | .idle => 0
  | .addr => 2 * c.rem.toNat + 2
  | .txNeed => 2 * c.rem.toNat + 1
  | .txSend => 2 * c.rem.toNat
  | .rxRecv => c.rem.toNat + 1
  | .endPhase => 1
  | .tcHold => 0

/-- Micro-steps a command has left, polls that find their flag 0 aside. -/
def sequencerWork (q : Seq) : Nat :=
  match q.status with
  | .busy =>
    match q.cmd with
    | .singleWrite => 7 - q.pc
    | .singleRead => 8 - q.pc
    | .burstRead =>
      if q.pc ≤ 5 then 5 - q.pc + 2 * (q.n.toNat - q.i.toNat) + 1
      else if q.pc = 6 then 2 * (q.n.toNat - q.i.toNat)
      else 8 - q.pc
  | .ready => 0
  | .done => 0
  | .rejected _ => 0

/-- The work left: a micro-step outweighs everything a phase it starts can take. -/
def State.workLeft (s : State) : Nat := 1024 * sequencerWork s.seq + controllerWork s.ctl

/-! ### What a read has brought (R98) -/

/-- The data bytes of the phase after one more event: none at an opener, one more at a byte the slave drives. -/
def phaseDataNext (ds : List Byte) (ev : BusEvent) : List Byte :=
  match ev with
  | .start => []
  | .repStart => []
  | .sData b => ds ++ [b]
  | .addrByte _ _ => ds
  | .sAck => ds
  | .sNack => ds
  | .mWrite _ => ds
  | .mAck => ds
  | .mNack => ds
  | .stop => ds

/-- The data bytes the slave has driven since the last START or repeated START of the trace. -/
def phaseData (trace : List BusEvent) : List Byte := trace.foldl phaseDataNext []

/-- The first `k` bytes of the buffer are the first `k` data bytes of the read phase (R98). -/
def bufferHolds (s : State) (k : Nat) : Prop :=
  ∀ j, j < k → Memory.read s.mem (s.seq.buf + j) = (phaseData s.trace)[j]?

/-- In a BURST_READ that has reached its read phase the data bytes number the ones consumed and the one that waits in RXDR, and the
buffer holds the consumed ones; when it is Done all `n` are there (R98). -/
def State.burstData (s : State) : Prop :=
  match s.seq.cmd, s.seq.status with
  | .burstRead, .busy =>
    5 ≤ s.seq.pc →
      (phaseData s.trace).length = s.seq.i.toNat + waiting s ∧ bufferHolds s s.seq.i.toNat
      ∧ (s.reg.isr.rxne = true → (phaseData s.trace)[s.seq.i.toNat]? = some s.reg.rxdata)
      ∧ (s.seq.pc = 7 → s.seq.i = s.seq.n)
  | .burstRead, .done => (phaseData s.trace).length = s.seq.n.toNat ∧ bufferHolds s s.seq.n.toNat
  | _, _ => True

end Sys2Proof.Machine
end

