-- ==== Sys2Proof/Certificates/Slice0/Obligations.lean ====
section
/-! DEFINITION. The statements for the provers, from the numbered rules of spec/. Where a statement speaks of a refusal or a fault, the
state is marked (spec/10_state.md R29); that a step of a marked state then stops is the model's reading of R121
(notes/assumptions/5.md). -/

open Sys2Proof Sys2Proof.Machine

/-! ### Encoding -/

/-- Words written out from the tables of R50 and R56 decode to what they stand for (95 L2.1 rows 10 to 18; R65). That a bare word is
read as a descriptor, with buf and buflen 0, is the model's choice (notes/assumptions/12.md). -/
def Obligations.SpecWordsDecode : Prop :=
  decodeTableWord 32 0x00000F19 = some (.singleRead 0x19#7 0x0F#8) ∧
  decodeTableWord 32 0x01572019 = some (.singleWrite 0x19#7 0x20#8 0x57#8) ∧
  decodeTableWord 32 0x0206681E = some (.burstRead 0x1E#7 0x68#8 6#8 0 0) ∧
  decodeTableWord 32 0x02FF001E = some (.burstRead 0x1E#7 0x00#8 255#8 0 0) ∧
  decodeTableWord 32 0x0200681E = some (.burstRead 0x1E#7 0x68#8 0#8 0 0) ∧
  decodeTableWord 32 0x03000F19 = none ∧ decodeTableWord 32 0x00010F19 = none ∧
  decodeTableWord 32 0x00000F99 = none ∧ decodeTableWord 32 0x04000F19 = none ∧
  decode 0x40005400 (.access ⟨0x40005404, 32, .write 0x00012032#32⟩) = .instr (.wrCr2StartW 0x00012032#32) ∧
  decode 0x40005400 (.access ⟨0x40005404, 32, .write 0x02012432#32⟩) = .instr (.wrCr2StartR 0x02012432#32) ∧
  decode 0x40005400 (.access ⟨0x40005404, 32, .write 0x00000032#32⟩) = .instr (.wrCr2NoStart 0x00000032#32) ∧
  decode 0x40005400 (.access ⟨0x40005418, 32, .read⟩) = .instr .rdIsr ∧
  decode 0x40005400 (.access ⟨0x40005424, 32, .read⟩) = .instr .rdRxdr ∧
  decode 0x40005400 (.access ⟨0x40005428, 32, .write 0x0000000F#32⟩) = .instr (.wrTxdr 0x0000000F#32)

/-- R57: every 32-bit word is one shape with its fields, by the match and mask R57 gives each shape, or Reserved. -/
def Obligations.DescriptorDecode : Prop :=
  ∀ (w : Word) (buf buflen : Nat),
    (w &&& 0xFFFF0080#32 = 0x00000000#32 →
      decodeDescriptor w buf buflen = .instr (.singleRead (w.extractLsb' 0 7) (w.extractLsb' 8 8))) ∧
    (w &&& 0xFF000080#32 = 0x01000000#32 →
      decodeDescriptor w buf buflen = .instr (.singleWrite (w.extractLsb' 0 7) (w.extractLsb' 8 8) (w.extractLsb' 16 8))) ∧
    (w &&& 0xFF000080#32 = 0x02000000#32 →
      decodeDescriptor w buf buflen =
        .instr (.burstRead (w.extractLsb' 0 7) (w.extractLsb' 8 8) (w.extractLsb' 16 8) buf buflen)) ∧
    (w &&& 0xFFFF0080#32 ≠ 0x00000000#32 → w &&& 0xFF000080#32 ≠ 0x01000000#32 → w &&& 0xFF000080#32 ≠ 0x02000000#32 →
      decodeDescriptor w buf buflen = .reservedDescriptor)

/-- Decoding what the encoder gives for a well-formed instruction gives it back, whatever the base address. -/
def Obligations.DecodeEncodeAgree : Prop :=
  ∀ (base : Nat) (i : Instr), i.wf = true → decode base (encode base i) = .instr i

/-- The other direction: the encoding of what a request decodes to is the request, the operands buf and buflen of a single shape
aside, which it does not have (R58); those of a burst come back. -/
def Obligations.EncodeDecodeAgree : Prop :=
  ∀ (base : Nat) (r : Request) (i : Instr), decode base r = .instr i →
    match r with
    | .command w buf buflen =>
      ((∃ a7 reg, i = .singleRead a7 reg) ∨ (∃ a7 reg val, i = .singleWrite a7 reg val)) ∧ encode base i = .command w 0 0 ∨
      (∃ a7 reg n, i = .burstRead a7 reg n buf buflen) ∧ encode base i = .command w buf buflen
    | .access a => encode base i = .access a
    | .read slave reg => encode base i = .read slave reg
    | .write slave reg val => encode base i = .write slave reg val
    | .readAll slave range buf buflen => encode base i = .readAll slave range buf buflen

/-- R65 and R74: the accesses of R65's table are the rows it names; a write to ISR or RXDR is refused R_READ_ONLY; every other access
is refused R_UNSUPPORTED_ACCESS, one below the base too (notes/assumptions/23.md); a refusal changes nothing but its mark. -/
def Obligations.AccessAdmission : Prop :=
  ∀ (s : State) (addr width : Nat) (kind : AccessKind), ∀ base, base = s.params.base →
    (width = 32 → addr = base + 0x04 → kind = .read → decode base (.access ⟨addr, width, kind⟩) = .instr .rdCr2) ∧
    (width = 32 → addr = base + 0x18 → kind = .read → decode base (.access ⟨addr, width, kind⟩) = .instr .rdIsr) ∧
    (width = 32 → addr = base + 0x24 → kind = .read → decode base (.access ⟨addr, width, kind⟩) = .instr .rdRxdr) ∧
    (width = 32 → addr = base + 0x28 → kind = .read → decode base (.access ⟨addr, width, kind⟩) = .instr .rdTxdr) ∧
    (∀ v, width = 32 → addr = base + 0x04 → kind = .write v →
      decode base (.access ⟨addr, width, kind⟩) =
        .instr (if v.getLsbD 13 = false then .wrCr2NoStart v else if v.getLsbD 10 then .wrCr2StartR v else .wrCr2StartW v)) ∧
    (∀ v, width = 32 → addr = base + 0x28 → kind = .write v → decode base (.access ⟨addr, width, kind⟩) = .instr (.wrTxdr v)) ∧
    (∀ v, width = 32 → addr = base + 0x18 ∨ addr = base + 0x24 → kind = .write v →
      runRequest (.access ⟨addr, width, kind⟩) s = .next (s.refuse .readOnly)) ∧
    (width ≠ 32 ∨ addr ≠ base + 0x04 ∧ addr ≠ base + 0x18 ∧ addr ≠ base + 0x24 ∧ addr ≠ base + 0x28 →
      runRequest (.access ⟨addr, width, kind⟩) s = .next (s.refuse .unsupportedAccess))

/-! ### Operand forms and flags -/

/-- R51: the assembled CR2 word carries its four operands and START, none of the must-be-zero bits of R50, and is the value of R51's
table in each of the engine's four uses. -/
def Obligations.Cr2ValueAssembly : Prop :=
  ∀ (a7 : Addr7) (rw : Dir) (n : Byte) (ae : Bool),
    cr2Sadd7 (cr2Value a7 rw n ae) = a7 ∧ cr2Dir (cr2Value a7 rw n ae) = rw ∧ cr2Nbytes (cr2Value a7 rw n ae) = n ∧
    cr2Autoend (cr2Value a7 rw n ae) = ae ∧ startBit (cr2Value a7 rw n ae) = true ∧
    cr2Value a7 rw n ae &&& 0xFD00DB01#32 = 0#32 ∧
    cr2Value a7 .write 1#8 false = 0x00012000#32 ||| (a7.setWidth 32 <<< 1) ∧
    cr2Value a7 .write 2#8 false = 0x00022000#32 ||| (a7.setWidth 32 <<< 1) ∧
    cr2Value a7 .read 1#8 true = 0x02012400#32 ||| (a7.setWidth 32 <<< 1) ∧
    cr2Value a7 .read n true = 0x02002400#32 ||| (n.setWidth 32 <<< 16) ||| (a7.setWidth 32 <<< 1)

/-- R52: bit by bit, the ISR word is its seven flags at bits 0, 1, 2, 4, 5, 6 and 15, and 0 at every other bit; the sequencer's flag
tests are bits 1, 2 and 6 of it. -/
def Obligations.IsrWordBits : Prop :=
  ∀ (f : Isr),
    (∀ k : Nat, f.word.getLsbD k =
      (decide (k = 0) && f.txe || decide (k = 1) && f.txis || decide (k = 2) && f.rxne || decide (k = 4) && f.nackf ||
        decide (k = 5) && f.stopf || decide (k = 6) && f.tc || decide (k = 15) && f.busy)) ∧
    (∀ w : Word, flagSet .txis w = w.getLsbD 1 ∧ flagSet .rxne w = w.getLsbD 2 ∧ flagSet .tc w = w.getLsbD 6)

/-- R54, R55: the bus address byte is `(a7 << 1) | rw`; the sub-address byte is `reg` for the single shapes and `reg | 0x80` for a
burst, which leaves a set bit 7 as it is. -/
def Obligations.BusBytes : Prop :=
  ∀ (a7 : Addr7) (reg : Byte),
    addressByte a7 .write = a7.setWidth 8 <<< 1 ∧ addressByte a7 .read = (a7.setWidth 8 <<< 1) ||| 1#8 ∧
    subAddress .singleRead reg = reg ∧ subAddress .singleWrite reg = reg ∧ subAddress .burstRead reg = reg ||| 0x80#8 ∧
    (reg.getLsbD 7 = true → subAddress .burstRead reg = reg)

/-! ### The step -/

/-- A state with no mark whose caller presents, at once, a request that decodes to `i`, runs `i`: the step is `exec i` of the state
with that request taken from the caller's list. That is so of a command or a facade operation at any time, and of a register-access
line while no command is in progress. It is so too of a request that waits, once no command is in progress and the controller has
no step. A placed table word runs the instruction it decodes to.
The caller's list and the reading of a table word are the model's choices (notes/assumptions/9.md, 12.md), and that a register-access
line of the caller runs as its row while no command is in progress is the model's reading (notes/assumptions/15.md). -/
def Obligations.StepRunsDecodedInstruction : Prop :=
  ∀ (s : State) (x : Submission) (rest : List Submission) (i : Instr),
    s.faults = [] → s.refused = none → decode s.params.base x.request = .instr i →
    (s.env.inbox = x :: rest →
      x.wait = false ∧ ((∀ a, x.request ≠ .access a) ∨ s.seq.status ≠ .busy) ∨ s.seq.status ≠ .busy ∧ controllerStep s = none →
      step s = exec i (s.setEnv { s.env with inbox := rest })) ∧
    (∀ nbits w, decodeTableWord nbits w = some i → step (s.withFetchWord nbits w) = exec i s)

/-- R113, R141, R142: a step leaves the caller's list as it is or takes its oldest request; while a command is in progress it takes
none that waits and no register-access line, so that no other agent than the sequencer accesses the register block then (R5, R124).
Requests that do not wait are the model's choice (notes/assumptions/9.md), and that a register-access line runs between commands is
its reading (notes/assumptions/15.md). -/
def Obligations.CallerWaits : Prop :=
  ∀ (s t : State), step s = .next t →
    t.env.inbox = s.env.inbox ∨
    ∃ x, s.env.inbox = x :: t.env.inbox ∧ (x.wait = true ∨ (∃ a, x.request = .access a) → s.seq.status ≠ .busy)

/-- When both agents have a step and nothing is urgent, the schedule says which goes: the next choice fixed in advance is taken from
the list, and that agent steps.
The list of choices is the model's (notes/assumptions/8.md). -/
def Obligations.ScheduleChoosesAgent : Prop :=
  ∀ (s a b : State) (rest : List Agent), s.faults = [] → s.refused = none → urgent s = false →
    sequencerStep s = some a → controllerStep s = some b →
    (s.env.sched = .sequencer :: rest →
      ∃ t, step s = .next t ∧ sequencerStep (s.setEnv { s.env with sched := rest }) = some t) ∧
    (s.env.sched = .controller :: rest →
      ∃ t, step s = .next t ∧ controllerStep (s.setEnv { s.env with sched := rest }) = some t)

/-- A state with a mark gives no further meaning: its step stops with the fault raised first, or with the refusal. -/
def Obligations.MarkedStateStops : Prop :=
  ∀ (s : State),
    (∀ f rest, s.faults = f :: rest → step s = .fault f) ∧
    (∀ r, s.faults = [] → s.refused = some r → step s = .refused r)

/-- When no agent has a step the machine holds: the state stays as it is. The model's choice: notes/assumptions/6.md. -/
def Obligations.HoldKeepsState : Prop :=
  ∀ (s : State), s.faults = [] → s.refused = none → controllerStep s = none →
    (s.seq.status = .busy ∧ sequencerStep s = none ∧ urgent s = false ∨ s.seq.status ≠ .busy ∧ s.env.inbox = []) →
    step s = .next s

/-! ### Register accesses -/

/-- R60, R66, R120: a CR2 write with START, for both rows. In every phase a must-be-zero bit refuses it, and so does NBYTES = 0; else
an active phase faults it (R68); else the word is stored, the phase latched, a START with BUSY set goes out from Idle, a repeated
START with TC cleared from TcHold, and nothing else changes, STOPF and NACKF among it. A write that is not accepted changes nothing
but the mark. That NBYTES = 0 is refused in an active phase too is the model's reading (notes/assumptions/24.md). -/
def Obligations.StartWrite : Prop :=
  ∀ (v : Word) (s : State), startBit v = true →
    ∀ rw, rw = (if v.getLsbD 10 then Dir.read else Dir.write) →
    ∀ i, i = (if v.getLsbD 10 then Instr.wrCr2StartR v else Instr.wrCr2StartW v) →
    ∀ c : Ctl, c = { phase := .addr, sadd7 := v.extractLsb' 1 7, rw := rw, rem := v.extractLsb' 16 8, autoend := v.getLsbD 25,
                     shift := s.ctl.shift } →
    (v &&& 0xFD00DB01#32 ≠ 0#32 → exec i s = .next (s.refuse .unsupportedCr2Field)) ∧
    (v &&& 0xFD00DB01#32 = 0#32 → v.extractLsb' 16 8 = 0#8 → exec i s = .next (s.refuse .zeroNbytes)) ∧
    (v &&& 0xFD00DB01#32 = 0#32 → v.extractLsb' 16 8 ≠ 0#8 → s.ctl.phase ≠ .idle → s.ctl.phase ≠ .tcHold →
      exec i s = .next (s.raise .cr2WhileActive)) ∧
    (v &&& 0xFD00DB01#32 = 0#32 → v.extractLsb' 16 8 ≠ 0#8 → s.ctl.phase = .idle →
      exec i s = .next { s with
        reg := { s.reg with cr2 := v, isr := { s.reg.isr with busy := true } }, ctl := c, trace := s.trace ++ [.start] }) ∧
    (v &&& 0xFD00DB01#32 = 0#32 → v.extractLsb' 16 8 ≠ 0#8 → s.ctl.phase = .tcHold →
      exec i s = .next { s with
        reg := { s.reg with cr2 := v, isr := { s.reg.isr with tc := false } }, ctl := c, trace := s.trace ++ [.repStart] })

/-- R68, R120: a CR2 write that nothing refuses, by any of the three rows, in a phase other than Idle and TcHold faults and has no
other effect; a START write of NBYTES = 0 without must-be-zero bits is refused there and has no other effect, which is the model's
reading (notes/assumptions/24.md). -/
def Obligations.ActiveWriteFaults : Prop :=
  ∀ (v : Word) (s : State) (i : Instr), i = .wrCr2StartW v ∨ i = .wrCr2StartR v ∨ i = .wrCr2NoStart v →
    v &&& 0xFD00DB01#32 = 0#32 →
    (s.ctl.phase = .addr ∨ s.ctl.phase = .txNeed ∨ s.ctl.phase = .txSend ∨ s.ctl.phase = .rxRecv ∨ s.ctl.phase = .endPhase) →
    (i = .wrCr2NoStart v ∨ v.extractLsb' 16 8 ≠ 0#8 → exec i s = .next (s.raise .cr2WhileActive)) ∧
    (i ≠ .wrCr2NoStart v → v.extractLsb' 16 8 = 0#8 → exec i s = .next (s.refuse .zeroNbytes))

/-- R67: WR_CR2 without START. In Idle and TcHold it stores the word, NBYTES = 0 allowed, and nothing else changes; a must-be-zero bit
refuses it, an active phase faults it (R68). -/
def Obligations.NoStartWrite : Prop :=
  ∀ (v : Word) (s : State), startBit v = false →
    (v &&& 0xFD00DB01#32 ≠ 0#32 → exec (.wrCr2NoStart v) s = .next (s.refuse .unsupportedCr2Field)) ∧
    (v &&& 0xFD00DB01#32 = 0#32 → s.ctl.phase ≠ .idle → s.ctl.phase ≠ .tcHold →
      exec (.wrCr2NoStart v) s = .next (s.raise .cr2WhileActive)) ∧
    (v &&& 0xFD00DB01#32 = 0#32 → s.ctl.phase = .idle ∨ s.ctl.phase = .tcHold →
      exec (.wrCr2NoStart v) s = .next { s with reg := { s.reg with cr2 := v } })

/-- R69, R70, R72: RD_CR2, RD_ISR and RD_TXDR return the stored word, the word of R52 and the data byte with bits 31:8 zero, and
change nothing; the value returned is what the model's `reply` holds (notes/assumptions/11.md). -/
def Obligations.ReadsReturnWord : Prop :=
  ∀ (s : State),
    exec .rdCr2 s = .next { s with reply := some s.reg.cr2 } ∧
    exec .rdIsr s = .next { s with reply := some s.reg.isr.word } ∧
    exec .rdTxdr s = .next { s with reply := some (s.reg.txdata.setWidth 32) }

/-- R71: WR_TXDR. A bit of 31:8 refuses it in every phase; in a phase other than TxNeed it faults; in TxNeed the byte is stored, TXIS
and TXE are cleared and the phase becomes TxSend, with the byte in `ctl.shift` (R25), and nothing else changes. That the write puts the
byte into `ctl.shift` is the model's reading (notes/assumptions/27.md). -/
def Obligations.TxdrWrite : Prop :=
  ∀ (v : Word) (s : State),
    (v.extractLsb' 8 24 ≠ 0#24 → exec (.wrTxdr v) s = .next (s.refuse .unsupportedTxdrBits)) ∧
    (v.extractLsb' 8 24 = 0#24 → s.ctl.phase ≠ .txNeed → exec (.wrTxdr v) s = .next (s.raise .txdrNotReady)) ∧
    (v.extractLsb' 8 24 = 0#24 → s.ctl.phase = .txNeed →
      exec (.wrTxdr v) s = .next { s with
        reg := { s.reg with txdata := v.extractLsb' 0 8, isr := { s.reg.isr with txis := false, txe := false } },
        ctl := { s.ctl with shift := v.extractLsb' 0 8, phase := .txSend } })

/-- R73: RD_RXDR. With RXNE = 0 it faults; with RXNE = 1 it returns the byte with bits 31:8 zero and clears RXNE.
That `reply` holds the value returned is the model's choice (notes/assumptions/11.md). -/
def Obligations.RxdrRead : Prop :=
  ∀ (s : State),
    (s.reg.isr.rxne = false → exec .rdRxdr s = .next (s.raise .rxdrEmpty)) ∧
    (s.reg.isr.rxne = true →
      exec .rdRxdr s = .next { s with
        reg := { s.reg with isr := { s.reg.isr with rxne := false } }, reply := some (s.reg.rxdata.setWidth 32) })

/-- The frame of the eight register rows: the sequencer, host memory, the parameters, the environment and the upstream registers are
as before, and every host byte reads as before; the trace gains at most the START or repeated START of a START write; a row that
reads writes no register but `reply` and, for RD_RXDR, RXNE; NACKF and STOPF are as before. -/
def Obligations.RegisterRowFrame : Prop :=
  ∀ (i : Instr) (s t : State), exec i s = .next t →
    ((∃ v, i = .wrCr2StartW v) ∨ (∃ v, i = .wrCr2StartR v) ∨ (∃ v, i = .wrCr2NoStart v) ∨ (∃ v, i = .wrTxdr v) ∨
      i = .rdCr2 ∨ i = .rdIsr ∨ i = .rdTxdr ∨ i = .rdRxdr) →
    t.seq = s.seq ∧ (∀ a, Memory.read t.mem a = Memory.read s.mem a) ∧ t.params = s.params ∧ t.env = s.env ∧
    t.reg.upstream = s.reg.upstream ∧ t.reg.rxdata = s.reg.rxdata ∧
    t.reg.isr.nackf = s.reg.isr.nackf ∧ t.reg.isr.stopf = s.reg.isr.stopf ∧
    (t.trace = s.trace ∨
      ((∃ v, i = .wrCr2StartW v ∨ i = .wrCr2StartR v) ∧ (t.trace = s.trace ++ [.start] ∨ t.trace = s.trace ++ [.repStart]))) ∧
    ((∃ v, i = .wrTxdr v) ∨ t.reg.txdata = s.reg.txdata ∧ t.reg.isr.txis = s.reg.isr.txis ∧ t.reg.isr.txe = s.reg.isr.txe) ∧
    ((∃ v, i = .wrCr2StartW v ∨ i = .wrCr2StartR v ∨ i = .wrCr2NoStart v) ∨ t.reg.cr2 = s.reg.cr2) ∧
    ((∃ v, i = .wrCr2StartW v ∨ i = .wrCr2StartR v) ∨ t.reg.isr.busy = s.reg.isr.busy ∧ t.reg.isr.tc = s.reg.isr.tc) ∧
    (i = .rdRxdr ∨ t.reg.isr.rxne = s.reg.isr.rxne) ∧
    ((∃ v, i = .wrCr2StartW v ∨ i = .wrCr2StartR v ∨ i = .wrTxdr v) ∨ t.ctl = s.ctl) ∧
    (i = .rdCr2 ∨ i = .rdIsr ∨ i = .rdTxdr ∨ i = .rdRxdr ∨ t.reply = s.reply)

/-! ### Commands and facade -/

/-- R107: presented while no command is in progress, SINGLE_READ and SINGLE_WRITE are admitted, and so is a BURST_READ with n >= 1 and
buflen >= n: `seq` takes the shape, the operands the shape has, pc 0 and Busy, and nothing else changes. -/
def Obligations.CommandsAdmitted : Prop :=
  ∀ (s : State) (a7 : Addr7) (reg val n : Byte) (buf buflen : Nat), s.seq.status ≠ .busy →
    exec (.singleRead a7 reg) s = .next { s with
      seq := { s.seq with cmd := .singleRead, a7 := a7, reg := reg, i := 0#8, result := none, pc := 0, status := .busy } } ∧
    exec (.singleWrite a7 reg val) s = .next { s with
      seq := { s.seq with cmd := .singleWrite, a7 := a7, reg := reg, val := val, i := 0#8, result := none, pc := 0,
                          status := .busy } } ∧
    (n ≠ 0#8 → n.toNat ≤ buflen →
      exec (.burstRead a7 reg n buf buflen) s = .next { s with
        seq := { s.seq with cmd := .burstRead, a7 := a7, reg := reg, n := n, buf := buf, buflen := buflen, i := 0#8,
                            result := none, pc := 0, status := .busy } })

/-- R104, R105, R106: a reserved descriptor, a burst of no bytes and a burst into a buffer that is too small are rejected, each with
its code; `seq.status` takes the code and nothing else changes. -/
def Obligations.CommandsRejected : Prop :=
  ∀ (s : State) (w : Word) (a7 : Addr7) (reg n : Byte) (buf buflen : Nat), s.seq.status ≠ .busy →
    (decode s.params.base (.command w buf buflen) = .reservedDescriptor →
      runRequest (.command w buf buflen) s = .next { s with seq := { s.seq with status := .rejected .reserved } }) ∧
    exec (.burstRead a7 reg 0#8 buf buflen) s = .next { s with seq := { s.seq with status := .rejected .zeroLength } } ∧
    (n ≠ 0#8 → buflen < n.toNat →
      exec (.burstRead a7 reg n buf buflen) s = .next { s with seq := { s.seq with status := .rejected .bufferTooSmall } })

/-- R113: a command presented while one is in progress is refused R_COMMAND_OVERLAP, a reserved descriptor too (R102), and nothing but
the mark changes; after Done or a rejection a new command that R105 and R106 do not reject is admitted at once. -/
def Obligations.OverlapRefused : Prop :=
  ∀ (s : State) (w : Word) (buf buflen : Nat),
    (s.seq.status = .busy → runRequest (.command w buf buflen) s = .next (s.refuse .commandOverlap) ∧
      ∀ a7 reg val n, exec (.singleRead a7 reg) s = .next (s.refuse .commandOverlap) ∧
        exec (.singleWrite a7 reg val) s = .next (s.refuse .commandOverlap) ∧
        exec (.burstRead a7 reg n buf buflen) s = .next (s.refuse .commandOverlap)) ∧
    (s.seq.status = .done ∨ (∃ c, s.seq.status = .rejected c) →
      ∀ i, decode s.params.base (.command w buf buflen) = .instr i →
        (∀ a7 reg n, i = .burstRead a7 reg n buf buflen → n ≠ 0#8 ∧ n.toNat ≤ buflen) →
        ∃ t, runRequest (.command w buf buflen) s = .next t ∧ t.refused = s.refused ∧ t.seq.status = .busy ∧ t.seq.pc = 0 ∧
          (∀ a7 reg, i = .singleRead a7 reg → t.seq.cmd = .singleRead ∧ t.seq.a7 = a7 ∧ t.seq.reg = reg) ∧
          (∀ a7 reg val, i = .singleWrite a7 reg val →
            t.seq.cmd = .singleWrite ∧ t.seq.a7 = a7 ∧ t.seq.reg = reg ∧ t.seq.val = val) ∧
          (∀ a7 reg n, i = .burstRead a7 reg n buf buflen →
            t.seq.cmd = .burstRead ∧ t.seq.a7 = a7 ∧ t.seq.reg = reg ∧ t.seq.n = n ∧ t.seq.buf = buf ∧ t.seq.buflen = buflen))

/-- R110, R111, R112: a facade operation whose names resolve presents the command it expands to: the address of the slave, the bound
register, and for `read_all` the start and the length of the range. -/
def Obligations.FacadeExpands : Prop :=
  ∀ (s : State) (slave : SlaveName) (reg : RegName) (range : RangeName) (val : Byte) (buf buflen : Nat) (a7 : Addr7) (r : Byte),
    slaveAddr s.params slave = some a7 →
    (boundAddr s.params slave reg = some r →
      exec (.facadeRead slave reg) s = exec (.singleRead a7 r) s ∧
      exec (.facadeWrite slave reg val) s = exec (.singleWrite a7 r val) s) ∧
    (∀ e first last, rangeEntry s.params slave range = some e → boundAddr s.params slave e.first = some first →
      boundAddr s.params slave e.last = some last → first.toNat ≤ last.toNat →
      ∃ n : Byte, n.toNat = last.toNat - first.toNat ∧
        exec (.facadeReadAll slave range buf buflen) s = exec (.burstRead a7 first n buf buflen) s)

/-- The facade operations complete: with the slave and the register or range bound and no command in progress, each admits the command
it names (R107, R110, R111, R112). -/
def Obligations.FacadeCompletes : Prop :=
  ∀ (s : State) (slave : SlaveName) (reg : RegName) (range : RangeName) (val : Byte) (buf buflen : Nat) (a7 : Addr7),
    s.seq.status ≠ .busy → slaveAddr s.params slave = some a7 →
    (∀ r, boundAddr s.params slave reg = some r →
      exec (.facadeRead slave reg) s = .next { s with
        seq := { s.seq with cmd := .singleRead, a7 := a7, reg := r, i := 0#8, result := none, pc := 0, status := .busy } } ∧
      exec (.facadeWrite slave reg val) s = .next { s with
        seq := { s.seq with cmd := .singleWrite, a7 := a7, reg := r, val := val, i := 0#8, result := none, pc := 0,
                            status := .busy } }) ∧
    (∀ first n, rangeSpan s.params slave range = some (first, n) → n ≠ 0#8 → n.toNat ≤ buflen →
      exec (.facadeReadAll slave range buf buflen) s = .next { s with
        seq := { s.seq with cmd := .burstRead, a7 := a7, reg := first, n := n, buf := buf, buflen := buflen, i := 0#8,
                            result := none, pc := 0, status := .busy } })

/-- R108, R109: a register that is not bound, or a slave that is unknown, is refused R_UNBOUND_REGISTER; a range that has no entry,
whose bounds are not bound on the slave, or whose end lies below its start, is refused R_BAD_RANGE; nothing but the mark changes.
That `read_all` of an unknown slave is R_UNBOUND_REGISTER is the model's reading (notes/assumptions/16.md). -/
def Obligations.FacadeRefusals : Prop :=
  ∀ (s : State) (slave : SlaveName) (reg : RegName) (range : RangeName) (val : Byte) (buf buflen : Nat),
    (slaveAddr s.params slave = none ∨ boundAddr s.params slave reg = none →
      exec (.facadeRead slave reg) s = .next (s.refuse .unboundRegister) ∧
      exec (.facadeWrite slave reg val) s = .next (s.refuse .unboundRegister)) ∧
    (slaveAddr s.params slave = none →
      exec (.facadeReadAll slave range buf buflen) s = .next (s.refuse .unboundRegister)) ∧
    (∀ a7, slaveAddr s.params slave = some a7 →
      (rangeEntry s.params slave range = none ∨
        (∃ e, rangeEntry s.params slave range = some e ∧
          (boundAddr s.params slave e.first = none ∨ boundAddr s.params slave e.last = none ∨
            ∃ first last, boundAddr s.params slave e.first = some first ∧ boundAddr s.params slave e.last = some last ∧
              last.toNat < first.toNat))) →
      exec (.facadeReadAll slave range buf buflen) s = .next (s.refuse .badRange))

/-- The frame of the six command and facade rows: presenting a command touches no register, no part of the controller, no bus event
and no byte of memory; only `seq` and the refusal mark can change. -/
def Obligations.CommandRowFrame : Prop :=
  ∀ (i : Instr) (s t : State), exec i s = .next t →
    ((∃ a7 reg, i = .singleRead a7 reg) ∨ (∃ a7 reg val, i = .singleWrite a7 reg val) ∨
      (∃ a7 reg n buf buflen, i = .burstRead a7 reg n buf buflen) ∨ (∃ slave reg, i = .facadeRead slave reg) ∨
      (∃ slave reg val, i = .facadeWrite slave reg val) ∨ (∃ slave range buf buflen, i = .facadeReadAll slave range buf buflen)) →
    t.reg = s.reg ∧ t.ctl = s.ctl ∧ t.trace = s.trace ∧ (∀ a, Memory.read t.mem a = Memory.read s.mem a) ∧
    t.faults = s.faults ∧ t.reply = s.reply ∧ t.env = s.env ∧ t.params = s.params ∧
    (t.refused ≠ s.refused → t.seq = s.seq)

/-! ### Controller steps -/

/-- R77: the address step, whatever the slave answers. The address byte goes out and START clears; on ACK the phase becomes TxNeed with
TXIS set, or RxRecv; on NACK `SNack` and `Stop` go out, NACKF and STOPF are set, BUSY is cleared and the phase becomes Idle (R84).
`answer` is what the slave answers once the byte is on the bus (R9), and `e` the environment after it. -/
def Obligations.AddressStep : Prop :=
  ∀ (s sent : State), s.ctl.phase = .addr → sent = s.emit (.addrByte s.ctl.sadd7 s.ctl.rw) →
    (∃ (answer : Ack) (e : Env), sent.drawAck (addressByte s.ctl.sadd7 s.ctl.rw) = (answer, sent.setEnv e) ∧
      (answer = .ack → s.ctl.rw = .write →
        controllerStep s = some { s with
          reg := { s.reg with cr2 := clearStart s.reg.cr2, isr := { s.reg.isr with txis := true } },
          ctl := { s.ctl with phase := .txNeed }, trace := s.trace ++ [.addrByte s.ctl.sadd7 .write, .sAck], env := e }) ∧
      (answer = .ack → s.ctl.rw = .read →
        controllerStep s = some { s with
          reg := { s.reg with cr2 := clearStart s.reg.cr2 },
          ctl := { s.ctl with phase := .rxRecv }, trace := s.trace ++ [.addrByte s.ctl.sadd7 .read, .sAck], env := e }) ∧
      (answer = .nack →
        controllerStep s = some { s with
          reg := { s.reg with cr2 := clearStart s.reg.cr2,
                              isr := { s.reg.isr with nackf := true, stopf := true, busy := false } },
          ctl := { s.ctl with phase := .idle }, trace := s.trace ++ [.addrByte s.ctl.sadd7 s.ctl.rw, .sNack, .stop],
          env := e })) ∧
    startBit (clearStart s.reg.cr2) = false ∧ (∀ k, k ≠ 13 → (clearStart s.reg.cr2).getLsbD k = s.reg.cr2.getLsbD k)

/-- R79: the transmit step, whatever the slave answers. TXDR goes to the shift register and out, TXE is set; on ACK the count drops and
TXIS is set while bytes remain, else the phase ends; on NACK as in the address step (R84). A count of 0, which no run reaches in this
phase (R87), wraps to 255. -/
def Obligations.TransmitStep : Prop :=
  ∀ (s sent : State), s.ctl.phase = .txSend → sent = s.emit (.mWrite s.reg.txdata) →
    ∃ (answer : Ack) (e : Env), sent.drawAck s.reg.txdata = (answer, sent.setEnv e) ∧
      (answer = .ack → s.ctl.rem ≠ 1#8 →
        controllerStep s = some { s with
          reg := { s.reg with isr := { s.reg.isr with txe := true, txis := true } },
          ctl := { s.ctl with shift := s.reg.txdata, rem := s.ctl.rem - 1#8, phase := .txNeed },
          trace := s.trace ++ [.mWrite s.reg.txdata, .sAck], env := e }) ∧
      (answer = .ack → s.ctl.rem = 1#8 →
        controllerStep s = some { s with
          reg := { s.reg with isr := { s.reg.isr with txe := true } },
          ctl := { s.ctl with shift := s.reg.txdata, rem := 0#8, phase := .endPhase },
          trace := s.trace ++ [.mWrite s.reg.txdata, .sAck], env := e }) ∧
      (answer = .nack →
        controllerStep s = some { s with
          reg := { s.reg with isr := { s.reg.isr with txe := true, nackf := true, stopf := true, busy := false } },
          ctl := { s.ctl with shift := s.reg.txdata, phase := .idle },
          trace := s.trace ++ [.mWrite s.reg.txdata, .sNack, .stop], env := e })

/-- R80: the receive step, whatever the slave returns. Its byte goes to RXDR, RXNE is set, the count drops; the master acknowledges every
byte but the last. -/
def Obligations.ReceiveStep : Prop :=
  ∀ (s : State), s.ctl.phase = .rxRecv → s.reg.isr.rxne = false →
    ∃ (b : Byte) (e : Env), s.drawByte = (b, s.setEnv e) ∧
      (s.ctl.rem ≠ 1#8 →
        controllerStep s = some { s with
          reg := { s.reg with rxdata := b, isr := { s.reg.isr with rxne := true } }, ctl := { s.ctl with rem := s.ctl.rem - 1#8 },
          trace := s.trace ++ [.sData b, .mAck], env := e }) ∧
      (s.ctl.rem = 1#8 →
        controllerStep s = some { s with
          reg := { s.reg with rxdata := b, isr := { s.reg.isr with rxne := true } },
          ctl := { s.ctl with rem := 0#8, phase := .endPhase },
          trace := s.trace ++ [.sData b, .mNack], env := e })

/-- R82, R83: the end step. With autoend the controller emits `Stop`, sets STOPF, clears BUSY and is Idle; without, it sets TC, emits
nothing and holds the bus. -/
def Obligations.EndStep : Prop :=
  ∀ (s : State), s.ctl.phase = .endPhase →
    (s.ctl.autoend = true →
      controllerStep s = some { s with
        reg := { s.reg with isr := { s.reg.isr with stopf := true, busy := false } }, ctl := { s.ctl with phase := .idle },
        trace := s.trace ++ [.stop] }) ∧
    (s.ctl.autoend = false →
      controllerStep s = some { s with
        reg := { s.reg with isr := { s.reg.isr with tc := true } }, ctl := { s.ctl with phase := .tcHold } })

/-- R76, R78, R81: the controller has no step exactly in Idle, TcHold and TxNeed, and in RxRecv while RXNE is 1. -/
def Obligations.ControllerSchedule : Prop :=
  ∀ (s : State), controllerStep s = none ↔
    s.ctl.phase = .idle ∨ s.ctl.phase = .tcHold ∨ s.ctl.phase = .txNeed ∨ s.ctl.phase = .rxRecv ∧ s.reg.isr.rxne = true

/-- The frame of a controller step: the sequencer, host memory, TXDR, the upstream registers, the marks, `reply`, the parameters and
the caller's list are as before; the trace only grows; the latched address, direction and autoend stay. -/
def Obligations.ControllerFrame : Prop :=
  ∀ (s t : State), controllerStep s = some t →
    t.seq = s.seq ∧ (∀ a, Memory.read t.mem a = Memory.read s.mem a) ∧ t.reg.txdata = s.reg.txdata ∧
    t.reg.upstream = s.reg.upstream ∧ t.faults = s.faults ∧ t.refused = s.refused ∧ t.reply = s.reply ∧ t.params = s.params ∧
    t.env.inbox = s.env.inbox ∧ s.trace <+: t.trace ∧ t.ctl.sadd7 = s.ctl.sadd7 ∧ t.ctl.rw = s.ctl.rw ∧
    t.ctl.autoend = s.ctl.autoend

/-! ### Sequencer -/

/-- R95, R96, R97: the micro-step at each index of the three programs, with the CR2 words as those tables give them. -/
def Obligations.ShapePrograms : Prop :=
  ∀ (q : Seq), ∀ a, a = q.a7.setWidth 32 <<< 1 →
    (q.cmd = .singleWrite → program q =
      [.wrCr2 (0x00022000#32 ||| a), .wait .txis, .wrTx q.reg, .wait .txis, .wrTx q.val, .wait .tc, .done]) ∧
    (q.cmd = .singleRead → program q =
      [.wrCr2 (0x00012000#32 ||| a), .wait .txis, .wrTx q.reg, .wait .tc, .wrCr2 (0x02012400#32 ||| a), .wait .rxne,
       .rdRx .result, .done]) ∧
    (q.cmd = .burstRead → program q =
      [.wrCr2 (0x00012000#32 ||| a), .wait .txis, .wrTx (q.reg ||| 0x80#8), .wait .tc,
       .wrCr2Burst (0x02002400#32 ||| (q.n.setWidth 32 <<< 16) ||| a), .wait .rxne, .rdRx .buffer, .done])

/-- R90: a WAIT tests its flag and moves to the next index when it is 1; when it is 0 nothing changes and the WAIT polls again. -/
def Obligations.WaitPolls : Prop :=
  ∀ (s : State) (f : WaitFlag), s.seq.status = .busy → currentMicro s = some (.wait f) →
    ∀ flag, flag = (match f with | .txis => s.reg.isr.txis | .tc => s.reg.isr.tc | .rxne => s.reg.isr.rxne) →
    (flag = true → sequencerStep s = some { s with seq := { s.seq with pc := s.seq.pc + 1 } }) ∧
    (flag = false → sequencerStep s = some s)

/-- R89, R91, and R97's pc 4: WRCR2 and WRTX issue the register rows of the table: where the row of the word is accepted, its effect
and the next index (and `seq.i <- 0` at a burst's pc 4); where it is not, its mark alone, `seq.pc` as it was, which is the model's
reading of R121 (notes/assumptions/5.md). -/
def Obligations.WritingMicroSteps : Prop :=
  ∀ (s : State), s.seq.status = .busy → s.unmarked →
    (∀ v i t, currentMicro s = some (.wrCr2 v) → i = (if v.getLsbD 10 then Instr.wrCr2StartR v else Instr.wrCr2StartW v) →
      exec i s = .next t →
      (t.unmarked → sequencerStep s = some { t with seq := { s.seq with pc := s.seq.pc + 1 } }) ∧
      (¬ t.unmarked → sequencerStep s = some t)) ∧
    (∀ v i t, currentMicro s = some (.wrCr2Burst v) → i = (if v.getLsbD 10 then Instr.wrCr2StartR v else Instr.wrCr2StartW v) →
      exec i s = .next t →
      (t.unmarked → sequencerStep s = some { t with seq := { s.seq with i := 0#8, pc := s.seq.pc + 1 } }) ∧
      (¬ t.unmarked → sequencerStep s = some t)) ∧
    (∀ b t, currentMicro s = some (.wrTx b) → exec (.wrTxdr (b.setWidth 32)) s = .next t →
      (t.unmarked → sequencerStep s = some { t with seq := { s.seq with pc := s.seq.pc + 1 } }) ∧
      (¬ t.unmarked → sequencerStep s = some t))

/-- R92: RDRX with RXNE = 1. The byte goes to `seq.result`, or to host byte `buf + i`, every other byte reading as before; the burst
goes back to its WAIT while bytes are missing. With RXNE = 0 it faults. -/
def Obligations.ReadingMicroSteps : Prop :=
  ∀ (s : State), s.seq.status = .busy →
    ∀ isr, isr = { s.reg.isr with rxne := false } →
    (currentMicro s = some (.rdRx .result) → s.reg.isr.rxne = true →
      sequencerStep s = some { s with
        reg := { s.reg with isr := isr }, seq := { s.seq with result := some s.reg.rxdata, pc := s.seq.pc + 1 } }) ∧
    (currentMicro s = some (.rdRx .buffer) → s.reg.isr.rxne = true →
      ∃ t, sequencerStep s = some t ∧ t.reg = { s.reg with isr := isr } ∧ t.ctl = s.ctl ∧ t.trace = s.trace ∧
        t.faults = s.faults ∧ t.refused = s.refused ∧
        t.seq = { s.seq with i := s.seq.i + 1#8,
                             pc := if (s.seq.i + 1#8).toNat < s.seq.n.toNat then s.seq.pc - 1 else s.seq.pc + 1 } ∧
        Memory.read t.mem (s.seq.buf + s.seq.i.toNat) = some s.reg.rxdata ∧
        ∀ a, a ≠ s.seq.buf + s.seq.i.toNat → Memory.read t.mem a = Memory.read s.mem a) ∧
    (∀ dst, currentMicro s = some (.rdRx dst) → s.reg.isr.rxne = false → sequencerStep s = some (s.raise .rxdrEmpty))

/-- R93: DONE ends the command when the controller is in Idle or TcHold and holds in every other phase. -/
def Obligations.DoneHoldsUntilQuiescent : Prop :=
  ∀ (s : State), s.seq.status = .busy → currentMicro s = some .done →
    (s.ctl.phase = .idle ∨ s.ctl.phase = .tcHold → sequencerStep s = some { s with seq := { s.seq with status := .done } }) ∧
    (s.ctl.phase ≠ .idle → s.ctl.phase ≠ .tcHold → sequencerStep s = none)

/-- The frame of a sequencer step: the shape, its operands, the parameters, the environment, `reply`, RXDR, the upstream registers and
the sticky flags are as before; host memory changes at most at byte `buf + i` of a burst at its RDRX, and on every schedule of a
machine that is given commands only that is one of the bytes `buf` to `buf + n - 1` (R28, R39); the trace gains at most one START
or repeated START. That an access of a micro-step leaves `reply` is the model's choice (notes/assumptions/22.md). -/
def Obligations.SequencerFrame : Prop :=
  ∀ (s t : State), sequencerStep s = some t →
    t.seq.cmd = s.seq.cmd ∧ t.seq.a7 = s.seq.a7 ∧ t.seq.reg = s.seq.reg ∧ t.seq.val = s.seq.val ∧ t.seq.n = s.seq.n ∧
    t.seq.buf = s.seq.buf ∧ t.seq.buflen = s.seq.buflen ∧ t.params = s.params ∧ t.env = s.env ∧ t.reply = s.reply ∧
    t.reg.rxdata = s.reg.rxdata ∧ t.reg.upstream = s.reg.upstream ∧ t.reg.isr.nackf = s.reg.isr.nackf ∧
    t.reg.isr.stopf = s.reg.isr.stopf ∧
    (∀ a, currentMicro s ≠ some (.rdRx .buffer) ∨ a ≠ s.seq.buf + s.seq.i.toNat → Memory.read t.mem a = Memory.read s.mem a) ∧
    (s.EngineInv → currentMicro s = some (.rdRx .buffer) → s.seq.i.toNat < s.seq.n.toNat) ∧
    (t.trace = s.trace ∨ t.trace = s.trace ++ [.start] ∨ t.trace = s.trace ++ [.repStart])

/-! ### The whole machine -/

/-- R129, R32: after reset CR2 is 0, ISR reads 0x00000001, TXDR and RXDR read 0, the controller is Idle, the sequencer Ready, the
trace empty, no fault, not refused; the internal elements are 0, `seq.result` is none; and with no command presented the machine waits
(a hold, notes/assumptions/6.md). -/
def Obligations.ResetState : Prop :=
  State.reset.reg.cr2 = 0x00000000#32 ∧ State.reset.reg.isr.word = 0x00000001#32 ∧
  dataWord State.reset.reg.txdata = 0x00000000#32 ∧ dataWord State.reset.reg.rxdata = 0x00000000#32 ∧
  State.reset.ctl = { phase := .idle, sadd7 := 0#7, rw := .write, rem := 0#8, autoend := false, shift := 0#8 } ∧
  State.reset.seq.status = .ready ∧ State.reset.seq.a7 = 0#7 ∧ State.reset.seq.reg = 0#8 ∧ State.reset.seq.val = 0#8 ∧
  State.reset.seq.n = 0#8 ∧ State.reset.seq.buf = 0 ∧ State.reset.seq.buflen = 0 ∧ State.reset.seq.i = 0#8 ∧
  State.reset.seq.pc = 0 ∧ State.reset.seq.result = none ∧ State.reset.trace = [] ∧ State.reset.faults = [] ∧
  State.reset.refused = none ∧ step State.reset = .next State.reset

/-- After reset, whatever the parameters and whatever the upstream collaborator left, the state `State.reset` among them, hold the block's invariant, its bus grammar, the
engine's invariant, the burst account, the untouched register block, and the launch premises of R130 where the upstream collaborator
met its own. The layouts by which those read the upstream registers are presumed (notes/assumptions/26.md). -/
def Obligations.ResetMeetsInvariants : Prop :=
  State.reset = State.resetWith Config.params Config.upstream ∧
  ∀ (p : Params) (u : Upstream) (s : State), s = State.resetWith p u →
    s.Inv ∧ s.onGrammar ∧ s.EngineInv ∧ s.burstData ∧ s.blockUntouched ∧ s.lpBusIdle ∧ s.lpClean ∧ s.lpBuffers ∧
    (s.lpUpstream → s.launch)

/-- R25's TxSend, R87 and the stored forms: every step keeps the block's invariant, whatever the caller presents, register accesses among it. -/
def Obligations.StepKeepsInv : Prop :=
  ∀ (s t : State), s.Inv → step s = .next t → t.Inv

/-- R130, R131: what the upstream collaborator met before the first command stays met, and the register block stays at its base
(LP_STABLE_BASE). The layouts by which the premises read the upstream registers are presumed (notes/assumptions/26.md). -/
def Obligations.StepKeepsLaunch : Prop :=
  ∀ (s t : State), s.Inv → s.lpUpstream → step s = .next t → t.lpUpstream ∧ t.params.base = s.params.base

/-- R86: every step keeps the bus trace in the grammar, at the position the controller's phase stands for. -/
def Obligations.StepKeepsBusGrammar : Prop :=
  ∀ (s t : State), s.Inv → s.onGrammar → step s = .next t → t.onGrammar

/-- R117, R133 to R136: on commands alone the sequencer and the controller stay in step and no fault is raised. -/
def Obligations.StepKeepsEngineInv : Prop :=
  ∀ (s t : State), s.EngineInv → step s = .next t → t.EngineInv ∧ t.faults = []

/-- R98: every step keeps the burst's account of its data bytes; a BURST_READ that is Done has the `n` data bytes of its read phase in
`buf` to `buf + n - 1`, in the order of the trace. -/
def Obligations.StepKeepsBurstData : Prop :=
  ∀ (s t : State), s.EngineInv → s.burstData → step s = .next t → t.burstData

/-- R100: where both agents have a step, the sequencer's is a poll that changes nothing, or the two steps end in the same state in
either order. -/
def Obligations.AgentsCommute : Prop :=
  ∀ (s a b : State), s.EngineInv → sequencerStep s = some a → controllerStep s = some b →
    a = s ∨ ∃ c, controllerStep a = some c ∧ sequencerStep b = some c

/-- R99, R119: a controller step that draws NACK while a command is in progress leaves the command stalled at the WAIT it polls; and
nothing else does: a step that leaves a command stalled that was not stalled is one that put `SNack`, `Stop` on the bus. -/
def Obligations.NackStalls : Prop :=
  (∀ (s t : State), s.EngineInv → s.seq.status = .busy → s.ctl.phase ≠ .endPhase → controllerStep s = some t →
    t.ctl.phase = .idle → ∃ f, t.stalledAt f) ∧
  (∀ (s t : State) (f : WaitFlag), s.EngineInv → step s = .next t → t.stalledAt f →
    s.stalledAt f ∨ ∃ ev, t.trace = s.trace ++ [ev, .sNack, .stop])

/-- R119: a stalled command polls for ever: unless the caller breaks in, the step leaves the state as it is. -/
def Obligations.StallIsForever : Prop :=
  ∀ (s : State) (f : WaitFlag), s.faults = [] → s.refused = none → urgent s = false → s.stalledAt f → step s = .next s

/-- R139, R140: a command in progress that has not stalled has an agent whose step leaves less work; and no step of an agent does
anything but poll without leaving less. -/
def Obligations.CommandMakesProgress : Prop :=
  ∀ (s : State), s.EngineInv → s.seq.status = .busy →
    ((∃ f, s.stalledAt f) ∨ (∃ t, controllerStep s = some t ∧ t.workLeft < s.workLeft) ∨
      (∃ t, sequencerStep s = some t ∧ t.workLeft < s.workLeft)) ∧
    (∀ t, sequencerStep s = some t → t = s ∨ t.workLeft < s.workLeft) ∧
    (∀ t, controllerStep s = some t → t.workLeft < s.workLeft)

/-- R139, R140: on every weakly fair run of commands, whatever the schedule, a command in progress that has not stalled and whose every
byte is acknowledged ends. R130 has every claim about a command take the upstream collaborator's premises (their layouts presumed,
notes/assumptions/26.md). -/
def Obligations.FairRunEnds : Prop :=
  ∀ (r : Nat → State), isRun r → weaklyFair r → allAcknowledged r → (r 0).lpUpstream → (r 0).EngineInv → (r 0).seq.status = .busy →
    (∀ f, ¬ (r 0).stalledAt f) → ∃ k, (r k).seq.status = .done

/-- R141: of a program of commands presented to a machine that is not busy, the commands left are the last ones, in order; those that
have ended, the one in progress and those left are all of them; what is kept of each end is its status and the byte the caller
reads. So the final observation of a program that has ended has one entry for each of its commands. When a program of no commands
has ended is the model's choice (notes/assumptions/25.md); it has no entry in either reading. -/
def Obligations.ProgramObserved : Prop :=
  (∀ (s : State) (cmds : List Request) (k : Nat) (t : State) (ends : List CommandEnd),
    s.seq.status ≠ .busy → (∀ r ∈ cmds, ∀ a, r ≠ .access a) → runEnds k (s.loadProgram cmds) = some (t, ends) → t.unmarked →
    t.env.inbox <:+ (s.loadProgram cmds).env.inbox ∧
    ends.length + (if t.seq.status = .busy then 1 else 0) + t.env.inbox.length = cmds.length ∧
    (t.programEnded → ends.length = cmds.length)) ∧
  (∀ (s t : State) (e : CommandEnd), commandEnd s t = some e →
    t.ended ∧ e.status = t.seq.status ∧ e.result = t.callerResult)

/-- R28, R39, R130: on every schedule, where every burst meets LP_BUFFER (writable memory of the caller, outside the register block), no
burst writes a byte of the register block, and LP_BUFFER goes on to hold. -/
def Obligations.StepKeepsRegisterBlock : Prop :=
  ∀ (s t : State), s.EngineInv → s.lpBuffers → s.blockUntouched → step s = .next t → t.lpBuffers ∧ t.blockUntouched

/-- R95: a SINGLE_WRITE presented to a quiescent block whose slave acknowledges every byte runs to Done with the trace of R95, in
TcHold, the bus held. The caller waits with the rest, and the schedule lets the controller go first. The upstream collaborator has met
the premises of R130 (their layouts presumed, notes/assumptions/26.md). -/
def Obligations.SingleWriteRuns : Prop :=
  ∀ (s : State) (a7 : Addr7) (reg val : Byte) (acks : List Ack) (sched : List Agent),
    s.lpUpstream → s.EngineInv → (∀ x ∈ s.env.inbox, x.wait = true) → s.refused = none → s.seq.status ≠ .busy →
    s.env.acks = List.replicate 3 .ack ++ acks → s.env.sched = List.replicate 4 .controller ++ sched →
    ∃ t, Host.Core.run core 12 (s.placeRequest (encode s.params.base (.singleWrite a7 reg val))) = .next t ∧
      t.seq.status = .done ∧ t.ctl.phase = .tcHold ∧ t.reg.isr.tc = true ∧ t.reg.isr.busy = true ∧
      t.reg.cr2 = 0x00020000#32 ||| (a7.setWidth 32 <<< 1) ∧ t.mem = s.mem ∧ t.faults = [] ∧ t.refused = none ∧
      t.trace = s.trace ++ [if s.ctl.phase = .idle then .start else .repStart, .addrByte a7 .write, .sAck, .mWrite reg, .sAck,
                            .mWrite val, .sAck]

/-- R96: a SINGLE_READ presented to a quiescent block whose slave acknowledges every byte and returns `b` runs to Done with the trace
of R96 and the result `b`, and the controller is Idle. The caller waits with the rest, and the schedule lets the controller go
first. The upstream collaborator has met the premises of R130 (their layouts presumed, notes/assumptions/26.md). -/
def Obligations.SingleReadRuns : Prop :=
  ∀ (s : State) (a7 : Addr7) (reg b : Byte) (acks : List Ack) (bytes : List Byte) (sched : List Agent),
    s.lpUpstream → s.EngineInv → (∀ x ∈ s.env.inbox, x.wait = true) → s.refused = none → s.seq.status ≠ .busy →
    s.env.acks = List.replicate 3 .ack ++ acks → s.env.bytes = b :: bytes →
    s.env.sched = List.replicate 6 .controller ++ sched →
    ∃ t, Host.Core.run core 15 (s.placeRequest (encode s.params.base (.singleRead a7 reg))) = .next t ∧
      t.seq.status = .done ∧ t.callerResult = some b ∧ t.ctl.phase = .idle ∧ t.reg.isr.stopf = true ∧ t.reg.isr.busy = false ∧
      t.reg.isr.rxne = false ∧ t.reg.cr2 = 0x02010400#32 ||| (a7.setWidth 32 <<< 1) ∧ t.mem = s.mem ∧ t.faults = [] ∧
      t.refused = none ∧
      t.trace = s.trace ++ [if s.ctl.phase = .idle then .start else .repStart, .addrByte a7 .write, .sAck, .mWrite reg, .sAck,
                            .repStart, .addrByte a7 .read, .sAck, .sData b, .mNack, .stop]

/-- R97, R98, under the premises of R130 (the layouts of the upstream ones presumed, notes/assumptions/26.md): a BURST_READ presented to a quiescent block whose slave acknowledges every byte and
returns the `n` bytes `bs` runs to Done with the trace of R97, `bs` in `buf` to `buf + n - 1` and every other host byte as before.
The caller waits with the rest, and the schedule lets the controller go first. -/
def Obligations.BurstReadRuns : Prop :=
  ∀ (s : State) (a7 : Addr7) (reg n : Byte) (buf buflen : Nat) (bs : List Byte) (last : Byte) (acks : List Ack)
    (bytes : List Byte) (sched : List Agent),
    s.lpUpstream → s.EngineInv → (∀ x ∈ s.env.inbox, x.wait = true) → s.refused = none → s.seq.status ≠ .busy →
    (bs ++ [last]).length = n.toNat → n.toNat ≤ buflen → lpBuffer s.params buf buflen →
    s.env.acks = List.replicate 3 .ack ++ acks → s.env.bytes = bs ++ last :: bytes →
    s.env.sched = List.replicate (n.toNat + 5) .controller ++ sched →
    ∃ k t, Host.Core.run core k (s.placeRequest (encode s.params.base (.burstRead a7 reg n buf buflen))) = .next t ∧
      t.seq.status = .done ∧ t.ctl.phase = .idle ∧ t.reg.isr.rxne = false ∧
      t.reg.cr2 = 0x02000400#32 ||| (n.setWidth 32 <<< 16) ||| (a7.setWidth 32 <<< 1) ∧ t.faults = [] ∧ t.refused = none ∧
      (∀ j, j < n.toNat → Memory.read t.mem (buf + j) = (bs ++ [last])[j]?) ∧
      (∀ a, a < buf ∨ buf + n.toNat ≤ a → Memory.read t.mem a = Memory.read s.mem a) ∧
      t.trace = s.trace ++ [if s.ctl.phase = .idle then .start else .repStart, .addrByte a7 .write, .sAck, .mWrite (reg ||| 0x80#8),
                            .sAck, .repStart, .addrByte a7 .read, .sAck]
                  ++ bs.flatMap (fun b => [.sData b, .mAck]) ++ [.sData last, .mNack, .stop]

/-- What a step never takes back: NACKF and STOPF once set (R18), the events of the trace (R27); and what it never changes: the
parameters (R33) and the upstream registers (R22). -/
def Obligations.StepKeepsHistory : Prop :=
  ∀ (s t : State), step s = .next t →
    (s.reg.isr.nackf = true → t.reg.isr.nackf = true) ∧ (s.reg.isr.stopf = true → t.reg.isr.stopf = true) ∧
    s.trace <+: t.trace ∧ t.params = s.params ∧ t.reg.upstream = s.reg.upstream

/-- R29: the fault set only grows and a refusal is never cleared, whatever an instruction, a micro-step or the controller does. That
the set keeps its order and the refusal its first reason is the model's choice (notes/assumptions/1.md). -/
def Obligations.MarksOnlyGrow : Prop :=
  (∀ (i : Instr) (s t : State), exec i s = .next t → s.faults <+: t.faults ∧ ∀ r, s.refused = some r → t.refused = some r) ∧
  (∀ (s t : State), sequencerStep s = some t → s.faults <+: t.faults ∧ ∀ r, s.refused = some r → t.refused = some r) ∧
  (∀ (s t : State), controllerStep s = some t → t.faults = s.faults ∧ t.refused = s.refused)

/-- R140: `Done` is reached only at DONE with the controller in Idle or TcHold: at the end of a command no controller step is
pending. -/
def Obligations.DoneIsQuiescent : Prop :=
  ∀ (s t : State), step s = .next t → s.seq.status ≠ .done → t.seq.status = .done →
    currentMicro s = some .done ∧ (t.ctl.phase = .idle ∨ t.ctl.phase = .tcHold) ∧ controllerStep t = none

/-- R142: the caller gets a byte only from a SINGLE_READ that is Done, and then the byte `seq.result` holds. The accessor is the model's
(notes/assumptions/14.md). -/
def Obligations.ResultOnlyWhenDone : Prop :=
  ∀ (s : State),
    (s.seq.status = .done → s.seq.cmd = .singleRead → s.callerResult = s.seq.result) ∧
    (s.seq.status ≠ .done ∨ s.seq.cmd ≠ .singleRead → s.callerResult = none)
end

