-- ==== Sys2Proof/Laws/State.lean ====
section
/-! SUPPORT. One lemma per field and update: what each named update of Machine/Ops.lean leaves in each field. -/

namespace Sys2Proof.Machine

/-! `State.setCr2` -/

@[simp] theorem State.setCr2_reg_cr2 (s : State) (v : Word) : (s.setCr2 v).reg.cr2 = v := rfl
@[simp] theorem State.setCr2_reg_isr (s : State) (v : Word) : (s.setCr2 v).reg.isr = s.reg.isr := rfl
@[simp] theorem State.setCr2_reg_txdata (s : State) (v : Word) : (s.setCr2 v).reg.txdata = s.reg.txdata := rfl
@[simp] theorem State.setCr2_reg_rxdata (s : State) (v : Word) : (s.setCr2 v).reg.rxdata = s.reg.rxdata := rfl
@[simp] theorem State.setCr2_reg_upstream (s : State) (v : Word) : (s.setCr2 v).reg.upstream = s.reg.upstream := rfl
@[simp] theorem State.setCr2_ctl (s : State) (v : Word) : (s.setCr2 v).ctl = s.ctl := rfl
@[simp] theorem State.setCr2_seq (s : State) (v : Word) : (s.setCr2 v).seq = s.seq := rfl
@[simp] theorem State.setCr2_trace (s : State) (v : Word) : (s.setCr2 v).trace = s.trace := rfl
@[simp] theorem State.setCr2_mem (s : State) (v : Word) : (s.setCr2 v).mem = s.mem := rfl
@[simp] theorem State.setCr2_faults (s : State) (v : Word) : (s.setCr2 v).faults = s.faults := rfl
@[simp] theorem State.setCr2_refused (s : State) (v : Word) : (s.setCr2 v).refused = s.refused := rfl
@[simp] theorem State.setCr2_reply (s : State) (v : Word) : (s.setCr2 v).reply = s.reply := rfl
@[simp] theorem State.setCr2_env (s : State) (v : Word) : (s.setCr2 v).env = s.env := rfl
@[simp] theorem State.setCr2_params (s : State) (v : Word) : (s.setCr2 v).params = s.params := rfl

/-! `State.setIsr` -/

@[simp] theorem State.setIsr_reg_cr2 (s : State) (f : Isr) : (s.setIsr f).reg.cr2 = s.reg.cr2 := rfl
@[simp] theorem State.setIsr_reg_isr (s : State) (f : Isr) : (s.setIsr f).reg.isr = f := rfl
@[simp] theorem State.setIsr_reg_txdata (s : State) (f : Isr) : (s.setIsr f).reg.txdata = s.reg.txdata := rfl
@[simp] theorem State.setIsr_reg_rxdata (s : State) (f : Isr) : (s.setIsr f).reg.rxdata = s.reg.rxdata := rfl
@[simp] theorem State.setIsr_reg_upstream (s : State) (f : Isr) : (s.setIsr f).reg.upstream = s.reg.upstream := rfl
@[simp] theorem State.setIsr_ctl (s : State) (f : Isr) : (s.setIsr f).ctl = s.ctl := rfl
@[simp] theorem State.setIsr_seq (s : State) (f : Isr) : (s.setIsr f).seq = s.seq := rfl
@[simp] theorem State.setIsr_trace (s : State) (f : Isr) : (s.setIsr f).trace = s.trace := rfl
@[simp] theorem State.setIsr_mem (s : State) (f : Isr) : (s.setIsr f).mem = s.mem := rfl
@[simp] theorem State.setIsr_faults (s : State) (f : Isr) : (s.setIsr f).faults = s.faults := rfl
@[simp] theorem State.setIsr_refused (s : State) (f : Isr) : (s.setIsr f).refused = s.refused := rfl
@[simp] theorem State.setIsr_reply (s : State) (f : Isr) : (s.setIsr f).reply = s.reply := rfl
@[simp] theorem State.setIsr_env (s : State) (f : Isr) : (s.setIsr f).env = s.env := rfl
@[simp] theorem State.setIsr_params (s : State) (f : Isr) : (s.setIsr f).params = s.params := rfl

/-! `State.setTxdata` -/

@[simp] theorem State.setTxdata_reg_cr2 (s : State) (b : Byte) : (s.setTxdata b).reg.cr2 = s.reg.cr2 := rfl
@[simp] theorem State.setTxdata_reg_isr (s : State) (b : Byte) : (s.setTxdata b).reg.isr = s.reg.isr := rfl
@[simp] theorem State.setTxdata_reg_txdata (s : State) (b : Byte) : (s.setTxdata b).reg.txdata = b := rfl
@[simp] theorem State.setTxdata_reg_rxdata (s : State) (b : Byte) : (s.setTxdata b).reg.rxdata = s.reg.rxdata := rfl
@[simp] theorem State.setTxdata_reg_upstream (s : State) (b : Byte) : (s.setTxdata b).reg.upstream = s.reg.upstream := rfl
@[simp] theorem State.setTxdata_ctl (s : State) (b : Byte) : (s.setTxdata b).ctl = s.ctl := rfl
@[simp] theorem State.setTxdata_seq (s : State) (b : Byte) : (s.setTxdata b).seq = s.seq := rfl
@[simp] theorem State.setTxdata_trace (s : State) (b : Byte) : (s.setTxdata b).trace = s.trace := rfl
@[simp] theorem State.setTxdata_mem (s : State) (b : Byte) : (s.setTxdata b).mem = s.mem := rfl
@[simp] theorem State.setTxdata_faults (s : State) (b : Byte) : (s.setTxdata b).faults = s.faults := rfl
@[simp] theorem State.setTxdata_refused (s : State) (b : Byte) : (s.setTxdata b).refused = s.refused := rfl
@[simp] theorem State.setTxdata_reply (s : State) (b : Byte) : (s.setTxdata b).reply = s.reply := rfl
@[simp] theorem State.setTxdata_env (s : State) (b : Byte) : (s.setTxdata b).env = s.env := rfl
@[simp] theorem State.setTxdata_params (s : State) (b : Byte) : (s.setTxdata b).params = s.params := rfl

/-! `State.setRxdata` -/

@[simp] theorem State.setRxdata_reg_cr2 (s : State) (b : Byte) : (s.setRxdata b).reg.cr2 = s.reg.cr2 := rfl
@[simp] theorem State.setRxdata_reg_isr (s : State) (b : Byte) : (s.setRxdata b).reg.isr = s.reg.isr := rfl
@[simp] theorem State.setRxdata_reg_txdata (s : State) (b : Byte) : (s.setRxdata b).reg.txdata = s.reg.txdata := rfl
@[simp] theorem State.setRxdata_reg_rxdata (s : State) (b : Byte) : (s.setRxdata b).reg.rxdata = b := rfl
@[simp] theorem State.setRxdata_reg_upstream (s : State) (b : Byte) : (s.setRxdata b).reg.upstream = s.reg.upstream := rfl
@[simp] theorem State.setRxdata_ctl (s : State) (b : Byte) : (s.setRxdata b).ctl = s.ctl := rfl
@[simp] theorem State.setRxdata_seq (s : State) (b : Byte) : (s.setRxdata b).seq = s.seq := rfl
@[simp] theorem State.setRxdata_trace (s : State) (b : Byte) : (s.setRxdata b).trace = s.trace := rfl
@[simp] theorem State.setRxdata_mem (s : State) (b : Byte) : (s.setRxdata b).mem = s.mem := rfl
@[simp] theorem State.setRxdata_faults (s : State) (b : Byte) : (s.setRxdata b).faults = s.faults := rfl
@[simp] theorem State.setRxdata_refused (s : State) (b : Byte) : (s.setRxdata b).refused = s.refused := rfl
@[simp] theorem State.setRxdata_reply (s : State) (b : Byte) : (s.setRxdata b).reply = s.reply := rfl
@[simp] theorem State.setRxdata_env (s : State) (b : Byte) : (s.setRxdata b).env = s.env := rfl
@[simp] theorem State.setRxdata_params (s : State) (b : Byte) : (s.setRxdata b).params = s.params := rfl

/-! `State.setCtl` -/

@[simp] theorem State.setCtl_reg (s : State) (c : Ctl) : (s.setCtl c).reg = s.reg := rfl
@[simp] theorem State.setCtl_ctl (s : State) (c : Ctl) : (s.setCtl c).ctl = c := rfl
@[simp] theorem State.setCtl_seq (s : State) (c : Ctl) : (s.setCtl c).seq = s.seq := rfl
@[simp] theorem State.setCtl_trace (s : State) (c : Ctl) : (s.setCtl c).trace = s.trace := rfl
@[simp] theorem State.setCtl_mem (s : State) (c : Ctl) : (s.setCtl c).mem = s.mem := rfl
@[simp] theorem State.setCtl_faults (s : State) (c : Ctl) : (s.setCtl c).faults = s.faults := rfl
@[simp] theorem State.setCtl_refused (s : State) (c : Ctl) : (s.setCtl c).refused = s.refused := rfl
@[simp] theorem State.setCtl_reply (s : State) (c : Ctl) : (s.setCtl c).reply = s.reply := rfl
@[simp] theorem State.setCtl_env (s : State) (c : Ctl) : (s.setCtl c).env = s.env := rfl
@[simp] theorem State.setCtl_params (s : State) (c : Ctl) : (s.setCtl c).params = s.params := rfl

/-! `State.setPhase` -/

@[simp] theorem State.setPhase_reg (s : State) (p : Phase) : (s.setPhase p).reg = s.reg := rfl
@[simp] theorem State.setPhase_ctl (s : State) (p : Phase) : (s.setPhase p).ctl = { s.ctl with phase := p } := rfl
@[simp] theorem State.setPhase_seq (s : State) (p : Phase) : (s.setPhase p).seq = s.seq := rfl
@[simp] theorem State.setPhase_trace (s : State) (p : Phase) : (s.setPhase p).trace = s.trace := rfl
@[simp] theorem State.setPhase_mem (s : State) (p : Phase) : (s.setPhase p).mem = s.mem := rfl
@[simp] theorem State.setPhase_faults (s : State) (p : Phase) : (s.setPhase p).faults = s.faults := rfl
@[simp] theorem State.setPhase_refused (s : State) (p : Phase) : (s.setPhase p).refused = s.refused := rfl
@[simp] theorem State.setPhase_reply (s : State) (p : Phase) : (s.setPhase p).reply = s.reply := rfl
@[simp] theorem State.setPhase_env (s : State) (p : Phase) : (s.setPhase p).env = s.env := rfl
@[simp] theorem State.setPhase_params (s : State) (p : Phase) : (s.setPhase p).params = s.params := rfl

/-! `State.setSeq` -/

@[simp] theorem State.setSeq_reg (s : State) (q : Seq) : (s.setSeq q).reg = s.reg := rfl
@[simp] theorem State.setSeq_ctl (s : State) (q : Seq) : (s.setSeq q).ctl = s.ctl := rfl
@[simp] theorem State.setSeq_seq (s : State) (q : Seq) : (s.setSeq q).seq = q := rfl
@[simp] theorem State.setSeq_trace (s : State) (q : Seq) : (s.setSeq q).trace = s.trace := rfl
@[simp] theorem State.setSeq_mem (s : State) (q : Seq) : (s.setSeq q).mem = s.mem := rfl
@[simp] theorem State.setSeq_faults (s : State) (q : Seq) : (s.setSeq q).faults = s.faults := rfl
@[simp] theorem State.setSeq_refused (s : State) (q : Seq) : (s.setSeq q).refused = s.refused := rfl
@[simp] theorem State.setSeq_reply (s : State) (q : Seq) : (s.setSeq q).reply = s.reply := rfl
@[simp] theorem State.setSeq_env (s : State) (q : Seq) : (s.setSeq q).env = s.env := rfl
@[simp] theorem State.setSeq_params (s : State) (q : Seq) : (s.setSeq q).params = s.params := rfl

/-! `State.setPc` -/

@[simp] theorem State.setPc_reg (s : State) (k : Nat) : (s.setPc k).reg = s.reg := rfl
@[simp] theorem State.setPc_ctl (s : State) (k : Nat) : (s.setPc k).ctl = s.ctl := rfl
@[simp] theorem State.setPc_seq (s : State) (k : Nat) : (s.setPc k).seq = { s.seq with pc := k } := rfl
@[simp] theorem State.setPc_trace (s : State) (k : Nat) : (s.setPc k).trace = s.trace := rfl
@[simp] theorem State.setPc_mem (s : State) (k : Nat) : (s.setPc k).mem = s.mem := rfl
@[simp] theorem State.setPc_faults (s : State) (k : Nat) : (s.setPc k).faults = s.faults := rfl
@[simp] theorem State.setPc_refused (s : State) (k : Nat) : (s.setPc k).refused = s.refused := rfl
@[simp] theorem State.setPc_reply (s : State) (k : Nat) : (s.setPc k).reply = s.reply := rfl
@[simp] theorem State.setPc_env (s : State) (k : Nat) : (s.setPc k).env = s.env := rfl
@[simp] theorem State.setPc_params (s : State) (k : Nat) : (s.setPc k).params = s.params := rfl

/-! `State.writeMem` -/

@[simp] theorem State.writeMem_reg (s : State) (a : Nat) (b : Byte) : (s.writeMem a b).reg = s.reg := rfl
@[simp] theorem State.writeMem_ctl (s : State) (a : Nat) (b : Byte) : (s.writeMem a b).ctl = s.ctl := rfl
@[simp] theorem State.writeMem_seq (s : State) (a : Nat) (b : Byte) : (s.writeMem a b).seq = s.seq := rfl
@[simp] theorem State.writeMem_trace (s : State) (a : Nat) (b : Byte) : (s.writeMem a b).trace = s.trace := rfl
@[simp] theorem State.writeMem_mem (s : State) (a : Nat) (b : Byte) : (s.writeMem a b).mem = Memory.write s.mem a b := rfl
@[simp] theorem State.writeMem_faults (s : State) (a : Nat) (b : Byte) : (s.writeMem a b).faults = s.faults := rfl
@[simp] theorem State.writeMem_refused (s : State) (a : Nat) (b : Byte) : (s.writeMem a b).refused = s.refused := rfl
@[simp] theorem State.writeMem_reply (s : State) (a : Nat) (b : Byte) : (s.writeMem a b).reply = s.reply := rfl
@[simp] theorem State.writeMem_env (s : State) (a : Nat) (b : Byte) : (s.writeMem a b).env = s.env := rfl
@[simp] theorem State.writeMem_params (s : State) (a : Nat) (b : Byte) : (s.writeMem a b).params = s.params := rfl

/-! `State.setReply` -/

@[simp] theorem State.setReply_reg (s : State) (v : Word) : (s.setReply v).reg = s.reg := rfl
@[simp] theorem State.setReply_ctl (s : State) (v : Word) : (s.setReply v).ctl = s.ctl := rfl
@[simp] theorem State.setReply_seq (s : State) (v : Word) : (s.setReply v).seq = s.seq := rfl
@[simp] theorem State.setReply_trace (s : State) (v : Word) : (s.setReply v).trace = s.trace := rfl
@[simp] theorem State.setReply_mem (s : State) (v : Word) : (s.setReply v).mem = s.mem := rfl
@[simp] theorem State.setReply_faults (s : State) (v : Word) : (s.setReply v).faults = s.faults := rfl
@[simp] theorem State.setReply_refused (s : State) (v : Word) : (s.setReply v).refused = s.refused := rfl
@[simp] theorem State.setReply_reply (s : State) (v : Word) : (s.setReply v).reply = some v := rfl
@[simp] theorem State.setReply_env (s : State) (v : Word) : (s.setReply v).env = s.env := rfl
@[simp] theorem State.setReply_params (s : State) (v : Word) : (s.setReply v).params = s.params := rfl

/-! `State.setEnv` -/

@[simp] theorem State.setEnv_reg (s : State) (e : Env) : (s.setEnv e).reg = s.reg := rfl
@[simp] theorem State.setEnv_ctl (s : State) (e : Env) : (s.setEnv e).ctl = s.ctl := rfl
@[simp] theorem State.setEnv_seq (s : State) (e : Env) : (s.setEnv e).seq = s.seq := rfl
@[simp] theorem State.setEnv_trace (s : State) (e : Env) : (s.setEnv e).trace = s.trace := rfl
@[simp] theorem State.setEnv_mem (s : State) (e : Env) : (s.setEnv e).mem = s.mem := rfl
@[simp] theorem State.setEnv_faults (s : State) (e : Env) : (s.setEnv e).faults = s.faults := rfl
@[simp] theorem State.setEnv_refused (s : State) (e : Env) : (s.setEnv e).refused = s.refused := rfl
@[simp] theorem State.setEnv_reply (s : State) (e : Env) : (s.setEnv e).reply = s.reply := rfl
@[simp] theorem State.setEnv_env (s : State) (e : Env) : (s.setEnv e).env = e := rfl
@[simp] theorem State.setEnv_params (s : State) (e : Env) : (s.setEnv e).params = s.params := rfl

/-! `State.emit` -/

@[simp] theorem State.emit_reg (s : State) (ev : BusEvent) : (s.emit ev).reg = s.reg := rfl
@[simp] theorem State.emit_ctl (s : State) (ev : BusEvent) : (s.emit ev).ctl = s.ctl := rfl
@[simp] theorem State.emit_seq (s : State) (ev : BusEvent) : (s.emit ev).seq = s.seq := rfl
@[simp] theorem State.emit_trace (s : State) (ev : BusEvent) : (s.emit ev).trace = s.trace ++ [ev] := rfl
@[simp] theorem State.emit_mem (s : State) (ev : BusEvent) : (s.emit ev).mem = s.mem := rfl
@[simp] theorem State.emit_faults (s : State) (ev : BusEvent) : (s.emit ev).faults = s.faults := rfl
@[simp] theorem State.emit_refused (s : State) (ev : BusEvent) : (s.emit ev).refused = s.refused := rfl
@[simp] theorem State.emit_reply (s : State) (ev : BusEvent) : (s.emit ev).reply = s.reply := rfl
@[simp] theorem State.emit_env (s : State) (ev : BusEvent) : (s.emit ev).env = s.env := rfl
@[simp] theorem State.emit_params (s : State) (ev : BusEvent) : (s.emit ev).params = s.params := rfl

/-! `State.raise` -/

@[simp] theorem State.raise_reg (s : State) (f : Fault) : (s.raise f).reg = s.reg := rfl
@[simp] theorem State.raise_ctl (s : State) (f : Fault) : (s.raise f).ctl = s.ctl := rfl
@[simp] theorem State.raise_seq (s : State) (f : Fault) : (s.raise f).seq = s.seq := rfl
@[simp] theorem State.raise_trace (s : State) (f : Fault) : (s.raise f).trace = s.trace := rfl
@[simp] theorem State.raise_mem (s : State) (f : Fault) : (s.raise f).mem = s.mem := rfl
@[simp] theorem State.raise_faults (s : State) (f : Fault) : (s.raise f).faults = if f ∈ s.faults then s.faults else s.faults ++ [f] := rfl
@[simp] theorem State.raise_refused (s : State) (f : Fault) : (s.raise f).refused = s.refused := rfl
@[simp] theorem State.raise_reply (s : State) (f : Fault) : (s.raise f).reply = s.reply := rfl
@[simp] theorem State.raise_env (s : State) (f : Fault) : (s.raise f).env = s.env := rfl
@[simp] theorem State.raise_params (s : State) (f : Fault) : (s.raise f).params = s.params := rfl

/-! `State.reject` -/

@[simp] theorem State.reject_reg (s : State) (c : RejectCode) : (s.reject c).reg = s.reg := rfl
@[simp] theorem State.reject_ctl (s : State) (c : RejectCode) : (s.reject c).ctl = s.ctl := rfl
@[simp] theorem State.reject_seq (s : State) (c : RejectCode) : (s.reject c).seq = { s.seq with status := .rejected c } := rfl
@[simp] theorem State.reject_trace (s : State) (c : RejectCode) : (s.reject c).trace = s.trace := rfl
@[simp] theorem State.reject_mem (s : State) (c : RejectCode) : (s.reject c).mem = s.mem := rfl
@[simp] theorem State.reject_faults (s : State) (c : RejectCode) : (s.reject c).faults = s.faults := rfl
@[simp] theorem State.reject_refused (s : State) (c : RejectCode) : (s.reject c).refused = s.refused := rfl
@[simp] theorem State.reject_reply (s : State) (c : RejectCode) : (s.reject c).reply = s.reply := rfl
@[simp] theorem State.reject_env (s : State) (c : RejectCode) : (s.reject c).env = s.env := rfl
@[simp] theorem State.reject_params (s : State) (c : RejectCode) : (s.reject c).params = s.params := rfl

/-! `State.refuse` -/

@[simp] theorem State.refuse_reg (s : State) (r : Refusal) : (s.refuse r).reg = s.reg := rfl
@[simp] theorem State.refuse_ctl (s : State) (r : Refusal) : (s.refuse r).ctl = s.ctl := rfl
@[simp] theorem State.refuse_seq (s : State) (r : Refusal) : (s.refuse r).seq = s.seq := rfl
@[simp] theorem State.refuse_trace (s : State) (r : Refusal) : (s.refuse r).trace = s.trace := rfl
@[simp] theorem State.refuse_mem (s : State) (r : Refusal) : (s.refuse r).mem = s.mem := rfl
@[simp] theorem State.refuse_faults (s : State) (r : Refusal) : (s.refuse r).faults = s.faults := rfl
@[simp] theorem State.refuse_refused (s : State) (r : Refusal) : (s.refuse r).refused = some (s.refused.getD r) := by
  cases h : s.refused <;> simp [State.refuse, h]
@[simp] theorem State.refuse_reply (s : State) (r : Refusal) : (s.refuse r).reply = s.reply := rfl
@[simp] theorem State.refuse_env (s : State) (r : Refusal) : (s.refuse r).env = s.env := rfl
@[simp] theorem State.refuse_params (s : State) (r : Refusal) : (s.refuse r).params = s.params := rfl

/-! The draws change `env` only; they leave its inbox, and each leaves the other draws' lists. -/

@[simp] theorem State.drawAck_reg (s : State) (b : Byte) : (s.drawAck b).2.reg = s.reg := by
  unfold State.drawAck; split <;> rfl
@[simp] theorem State.drawAck_ctl (s : State) (b : Byte) : (s.drawAck b).2.ctl = s.ctl := by
  unfold State.drawAck; split <;> rfl
@[simp] theorem State.drawAck_seq (s : State) (b : Byte) : (s.drawAck b).2.seq = s.seq := by
  unfold State.drawAck; split <;> rfl
@[simp] theorem State.drawAck_trace (s : State) (b : Byte) : (s.drawAck b).2.trace = s.trace := by
  unfold State.drawAck; split <;> rfl
@[simp] theorem State.drawAck_mem (s : State) (b : Byte) : (s.drawAck b).2.mem = s.mem := by
  unfold State.drawAck; split <;> rfl
@[simp] theorem State.drawAck_faults (s : State) (b : Byte) : (s.drawAck b).2.faults = s.faults := by
  unfold State.drawAck; split <;> rfl
@[simp] theorem State.drawAck_refused (s : State) (b : Byte) : (s.drawAck b).2.refused = s.refused := by
  unfold State.drawAck; split <;> rfl
@[simp] theorem State.drawAck_reply (s : State) (b : Byte) : (s.drawAck b).2.reply = s.reply := by
  unfold State.drawAck; split <;> rfl
@[simp] theorem State.drawAck_params (s : State) (b : Byte) : (s.drawAck b).2.params = s.params := by
  unfold State.drawAck; split <;> rfl
@[simp] theorem State.drawAck_inbox (s : State) (b : Byte) : (s.drawAck b).2.env.inbox = s.env.inbox := by
  unfold State.drawAck; split <;> rfl
@[simp] theorem State.drawByte_reg (s : State) : s.drawByte.2.reg = s.reg := by
  unfold State.drawByte; split <;> rfl
@[simp] theorem State.drawByte_ctl (s : State) : s.drawByte.2.ctl = s.ctl := by
  unfold State.drawByte; split <;> rfl
@[simp] theorem State.drawByte_seq (s : State) : s.drawByte.2.seq = s.seq := by
  unfold State.drawByte; split <;> rfl
@[simp] theorem State.drawByte_trace (s : State) : s.drawByte.2.trace = s.trace := by
  unfold State.drawByte; split <;> rfl
@[simp] theorem State.drawByte_mem (s : State) : s.drawByte.2.mem = s.mem := by
  unfold State.drawByte; split <;> rfl
@[simp] theorem State.drawByte_faults (s : State) : s.drawByte.2.faults = s.faults := by
  unfold State.drawByte; split <;> rfl
@[simp] theorem State.drawByte_refused (s : State) : s.drawByte.2.refused = s.refused := by
  unfold State.drawByte; split <;> rfl
@[simp] theorem State.drawByte_reply (s : State) : s.drawByte.2.reply = s.reply := by
  unfold State.drawByte; split <;> rfl
@[simp] theorem State.drawByte_params (s : State) : s.drawByte.2.params = s.params := by
  unfold State.drawByte; split <;> rfl
@[simp] theorem State.drawByte_inbox (s : State) : s.drawByte.2.env.inbox = s.env.inbox := by
  unfold State.drawByte; split <;> rfl
@[simp] theorem State.pickAgent_reg (s : State) : s.pickAgent.2.reg = s.reg := by
  unfold State.pickAgent; split <;> rfl
@[simp] theorem State.pickAgent_ctl (s : State) : s.pickAgent.2.ctl = s.ctl := by
  unfold State.pickAgent; split <;> rfl
@[simp] theorem State.pickAgent_seq (s : State) : s.pickAgent.2.seq = s.seq := by
  unfold State.pickAgent; split <;> rfl
@[simp] theorem State.pickAgent_trace (s : State) : s.pickAgent.2.trace = s.trace := by
  unfold State.pickAgent; split <;> rfl
@[simp] theorem State.pickAgent_mem (s : State) : s.pickAgent.2.mem = s.mem := by
  unfold State.pickAgent; split <;> rfl
@[simp] theorem State.pickAgent_faults (s : State) : s.pickAgent.2.faults = s.faults := by
  unfold State.pickAgent; split <;> rfl
@[simp] theorem State.pickAgent_refused (s : State) : s.pickAgent.2.refused = s.refused := by
  unfold State.pickAgent; split <;> rfl
@[simp] theorem State.pickAgent_reply (s : State) : s.pickAgent.2.reply = s.reply := by
  unfold State.pickAgent; split <;> rfl
@[simp] theorem State.pickAgent_params (s : State) : s.pickAgent.2.params = s.params := by
  unfold State.pickAgent; split <;> rfl
@[simp] theorem State.pickAgent_inbox (s : State) : s.pickAgent.2.env.inbox = s.env.inbox := by
  unfold State.pickAgent; split <;> rfl

/-! Quiescence (spec/10_state.md R24). -/

theorem State.quiescent_iff (s : State) : s.quiescent = true ↔ s.ctl.phase = .idle ∨ s.ctl.phase = .tcHold := by
  unfold State.quiescent; split <;> simp_all

theorem State.quiescent_eq_false_iff (s : State) : s.quiescent = false ↔ s.ctl.phase ≠ .idle ∧ s.ctl.phase ≠ .tcHold := by
  unfold State.quiescent; split <;> simp_all

end Sys2Proof.Machine
end

