-- ==== Sys2Proof/Laws/Commands.lean ====
section
/-! SUPPORT. What admission and the facade can do (spec/43_command_admission.md): they mark the state, or change `seq` alone. -/

namespace Sys2Proof.Machine

/-- What presenting a command does to a state: refused, rejected, or the sequencer's state replaced by that of an admitted command
(R102 to R107, R113). -/
inductive Presented (s : State) : State → Prop where
  | overlap (h : s.seq.status = .busy) : Presented s (s.refuse .commandOverlap)
  | unbound : Presented s (s.refuse .unboundRegister)
  | badRange : Presented s (s.refuse .badRange)
  | rejected (h : s.seq.status ≠ .busy) (c : RejectCode) : Presented s (s.reject c)
  | read (h : s.seq.status ≠ .busy) (a7 : Addr7) (reg : Byte) : Presented s (s.setSeq (admitted s.seq .singleRead a7 reg))
  | write (h : s.seq.status ≠ .busy) (a7 : Addr7) (reg val : Byte) :
      Presented s (s.setSeq { admitted s.seq .singleWrite a7 reg with val := val })
  | burst (h : s.seq.status ≠ .busy) (a7 : Addr7) (reg n : Byte) (buf buflen : Nat) (hn : n ≠ 0#8) (hb : n.toNat ≤ buflen) :
      Presented s (s.setSeq { admitted s.seq .burstRead a7 reg with n := n, buf := buf, buflen := buflen })

theorem admitSingleRead_presented (a7 : Addr7) (reg : Byte) (s : State) : Presented s (admitSingleRead a7 reg s) := by
  unfold admitSingleRead unlessBusy
  split
  · exact .overlap ‹_›
  · exact .read ‹_› a7 reg

theorem admitSingleWrite_presented (a7 : Addr7) (reg val : Byte) (s : State) :
    Presented s (admitSingleWrite a7 reg val s) := by
  unfold admitSingleWrite unlessBusy
  split
  · exact .overlap ‹_›
  · exact .write ‹_› a7 reg val

theorem admitBurstRead_presented (a7 : Addr7) (reg n : Byte) (buf buflen : Nat) (s : State) :
    Presented s (admitBurstRead a7 reg n buf buflen s) := by
  unfold admitBurstRead unlessBusy
  split
  · exact .overlap ‹_›
  · split
    · exact .rejected ‹_› _
    · split
      · exact .rejected ‹_› _
      · exact .burst ‹_› a7 reg n buf buflen ‹_› (by omega)

theorem admitReserved_presented (s : State) : Presented s (admitReserved s) := by
  unfold admitReserved unlessBusy
  split
  · exact .overlap ‹_›
  · exact .rejected ‹_› _

theorem execFacadeRead_presented (slave : SlaveName) (reg : RegName) (s : State) :
    ∃ t, execFacadeRead slave reg s = .next t ∧ Presented s t := by
  unfold execFacadeRead
  split
  · exact ⟨_, rfl, admitSingleRead_presented _ _ _⟩
  · exact ⟨_, rfl, .unbound⟩

theorem execFacadeWrite_presented (slave : SlaveName) (reg : RegName) (val : Byte) (s : State) :
    ∃ t, execFacadeWrite slave reg val s = .next t ∧ Presented s t := by
  unfold execFacadeWrite
  split
  · exact ⟨_, rfl, admitSingleWrite_presented _ _ _ _⟩
  · exact ⟨_, rfl, .unbound⟩

theorem execFacadeReadAll_presented (slave : SlaveName) (range : RangeName) (buf buflen : Nat) (s : State) :
    ∃ t, execFacadeReadAll slave range buf buflen s = .next t ∧ Presented s t := by
  unfold execFacadeReadAll
  split
  · exact ⟨_, rfl, .unbound⟩
  · split
    · exact ⟨_, rfl, .badRange⟩
    · exact ⟨_, rfl, admitBurstRead_presented _ _ _ _ _ _⟩

end Sys2Proof.Machine
end

