-- ==== Sys2Proof/Laws/Controller.lean ====
section
/-! SUPPORT. What each controller step can do (spec/41_controller_fsm.md): for each, its results written out, the environment
after its draw aside. -/

namespace Sys2Proof.Machine

/-- Every draw leaves the inbox as it was. -/
theorem State.drawAck_cases (s : State) (b : Byte) :
    ∃ a e, e.inbox = s.env.inbox ∧ s.drawAck b = (a, s.setEnv e) := by
  unfold State.drawAck; split <;> exact ⟨_, _, by simp, rfl⟩

/-- The slave's answer depends on the environment and the trace only (R9). -/
theorem State.drawAck_eq {s t : State} {b : Byte} {a : Ack} {e : Env} (h : s.drawAck b = (a, s.setEnv e))
    (he : t.env = s.env) (ht : t.trace = s.trace) : t.drawAck b = (a, t.setEnv e) := by
  unfold State.drawAck at h ⊢
  rw [he, ht]
  split at h <;>
    (obtain ⟨rfl, hs⟩ := Prod.mk.inj h
     obtain rfl := congrArg State.env hs
     rfl)

theorem State.drawByte_cases (s : State) :
    ∃ b e, e.inbox = s.env.inbox ∧ s.drawByte = (b, s.setEnv e) := by
  unfold State.drawByte; split <;> exact ⟨_, _, by simp, rfl⟩

theorem State.pickAgent_cases (s : State) :
    ∃ a e, e.inbox = s.env.inbox ∧ s.pickAgent = (a, s.setEnv e) := by
  unfold State.pickAgent; split <;> exact ⟨_, _, by simp, rfl⟩

/-- The address step (R77, R84). -/
theorem addressStep_cases (s : State) : ∃ e : Env, e.inbox = s.env.inbox ∧
    (addressStep s = { s with
        reg := { s.reg with cr2 := clearStart s.reg.cr2, isr := s.reg.isr.onNack }, ctl := { s.ctl with phase := .idle },
        trace := s.trace ++ [.addrByte s.ctl.sadd7 s.ctl.rw, .sNack, .stop], env := e } ∨
     s.ctl.rw = .write ∧ addressStep s = { s with
        reg := { s.reg with cr2 := clearStart s.reg.cr2, isr := s.reg.isr.onTxReady }, ctl := { s.ctl with phase := .txNeed },
        trace := s.trace ++ [.addrByte s.ctl.sadd7 s.ctl.rw, .sAck], env := e } ∨
     s.ctl.rw = .read ∧ addressStep s = { s with
        reg := { s.reg with cr2 := clearStart s.reg.cr2 }, ctl := { s.ctl with phase := .rxRecv },
        trace := s.trace ++ [.addrByte s.ctl.sadd7 s.ctl.rw, .sAck], env := e }) := by
  obtain ⟨a, e, he, hd⟩ := State.drawAck_cases
    ((s.emit (.addrByte s.ctl.sadd7 s.ctl.rw)).setCr2 (clearStart s.reg.cr2)) (addressByte s.ctl.sadd7 s.ctl.rw)
  refine ⟨e, he, ?_⟩
  simp only [addressStep, hd]
  cases a
  · cases hrw : s.ctl.rw
    · exact .inr (.inl ⟨rfl, by simp [State.addressAcked, hrw]; simp [State.emit, State.setEnv, State.setCr2, State.setIsr,
        State.setPhase, State.setCtl, hrw]⟩)
    · exact .inr (.inr ⟨rfl, by simp [State.addressAcked, hrw]; simp [State.emit, State.setEnv, State.setCr2, State.setPhase,
        State.setCtl, hrw]⟩)
  · exact .inl (by simp [State.nackStop, State.emit, State.setEnv, State.setCr2, State.setIsr, State.setPhase, State.setCtl])

/-- The transmit step (R79, R84). -/
theorem transmitStep_cases (s : State) : ∃ e : Env, e.inbox = s.env.inbox ∧
    (transmitStep s = { s with
        reg := { s.reg with isr := s.reg.isr.onShift.onNack }, ctl := { s.ctl with shift := s.reg.txdata, phase := .idle },
        trace := s.trace ++ [.mWrite s.reg.txdata, .sNack, .stop], env := e } ∨
     s.ctl.rem - 1#8 = 0#8 ∧ transmitStep s = { s with
        reg := { s.reg with isr := s.reg.isr.onShift },
        ctl := { s.ctl with shift := s.reg.txdata, rem := s.ctl.rem - 1#8, phase := .endPhase },
        trace := s.trace ++ [.mWrite s.reg.txdata, .sAck], env := e } ∨
     s.ctl.rem - 1#8 ≠ 0#8 ∧ transmitStep s = { s with
        reg := { s.reg with isr := s.reg.isr.onShift.onTxReady },
        ctl := { s.ctl with shift := s.reg.txdata, rem := s.ctl.rem - 1#8, phase := .txNeed },
        trace := s.trace ++ [.mWrite s.reg.txdata, .sAck], env := e }) := by
  obtain ⟨a, e, he, hd⟩ := State.drawAck_cases
    (((s.setCtl { s.ctl with shift := s.reg.txdata }).setIsr s.reg.isr.onShift).emit (.mWrite s.reg.txdata)) s.reg.txdata
  refine ⟨e, he, ?_⟩
  simp only [transmitStep, hd]
  cases a
  · by_cases h0 : s.ctl.rem - 1#8 = 0#8
    · exact .inr (.inl ⟨h0, by simp [State.byteAcked, h0, State.emit, State.setEnv, State.setIsr,
        State.setCtl]⟩)
    · exact .inr (.inr ⟨h0, by simp [State.byteAcked, h0, State.emit, State.setEnv, State.setIsr,
        State.setCtl]⟩)
  · exact .inl (by simp [State.nackStop, State.emit, State.setEnv, State.setIsr, State.setPhase,
      State.setCtl])

/-- The receive step (R80). -/
theorem receiveStep_cases (s : State) : ∃ (e : Env) (b : Byte), e.inbox = s.env.inbox ∧
    (s.ctl.rem - 1#8 = 0#8 ∧ receiveStep s = { s with
        reg := { s.reg with rxdata := b, isr := s.reg.isr.onReceive },
        ctl := { s.ctl with rem := s.ctl.rem - 1#8, phase := .endPhase },
        trace := s.trace ++ [.sData b, .mNack], env := e } ∨
     s.ctl.rem - 1#8 ≠ 0#8 ∧ receiveStep s = { s with
        reg := { s.reg with rxdata := b, isr := s.reg.isr.onReceive }, ctl := { s.ctl with rem := s.ctl.rem - 1#8 },
        trace := s.trace ++ [.sData b, .mAck], env := e }) := by
  obtain ⟨b, e, he, hd⟩ := State.drawByte_cases s
  refine ⟨e, b, he, ?_⟩
  by_cases h0 : s.ctl.rem - 1#8 = 0#8
  · exact .inl ⟨h0, by simp [receiveStep, hd, h0, State.emit, State.setEnv, State.setIsr, State.setRxdata, State.setCtl]⟩
  · exact .inr ⟨h0, by simp [receiveStep, hd, h0, State.emit, State.setEnv, State.setIsr, State.setRxdata, State.setCtl]⟩

/-- The controller's enabled step by its phase (R76). -/
theorem controllerStep_cases {s t : State} (h : controllerStep s = some t) :
    s.ctl.phase = .addr ∧ t = addressStep s ∨ s.ctl.phase = .txSend ∧ t = transmitStep s ∨
    s.ctl.phase = .rxRecv ∧ s.reg.isr.rxne = false ∧ t = receiveStep s ∨ s.ctl.phase = .endPhase ∧ t = endStep s := by
  unfold controllerStep at h
  split at h <;> simp_all

end Sys2Proof.Machine
end

