-- ==== Sys2Proof/Laws/Decode.lean ====
section
/-! SUPPORT. What the decoder answers is well-formed. -/

namespace Sys2Proof

theorem decodeCr2Write_wf (v : Word) : (decodeCr2Write v).wf = true := by
  unfold decodeCr2Write
  split
  · split <;> simp_all [Instr.wf, startBit, rdWrnBit]
  · simp_all [Instr.wf, startBit]

theorem decode_wf {base : Nat} {r : Request} {i : Instr} (h : decode base r = .instr i) : i.wf = true := by
  cases r with
  | command w buf buflen =>
    revert h
    simp only [decode, decodeDescriptor]
    repeat' split
    all_goals (intro h; cases h)
    all_goals rfl
  | access a =>
    revert h
    simp only [decode, decodeAccess]
    split
    · split
      · split
        · unfold decodeRegRead
          repeat' split
          all_goals (intro h; cases h)
          all_goals rfl
        · unfold decodeRegWrite
          repeat' split
          all_goals (intro h; cases h)
          · exact decodeCr2Write_wf _
          · rfl
      · intro h; cases h
    · intro h; cases h
  | read slave reg => cases h; rfl
  | write slave reg val => cases h; rfl
  | readAll slave range buf buflen => cases h; rfl

end Sys2Proof
end

