-- ==== Sys2Proof/Laws/PerInstr.lean ====
section
/-! SUPPORT. Per instruction, as syntax: what the encoder gives has the format of the instruction's row of spec/opcode_table.json
(spec/30_encoding.md R50, R56, R62, R63): the row's fixed bits for a descriptor, the offset, width and direction for a register
access, the names for a facade line. -/

namespace Sys2Proof.Laws.RowFormat

/-- A descriptor whose OP byte is `op` and whose bit 7 is 0. -/
def descriptorOf (op : Byte) (w : Word) : Prop := w.extractLsb' 24 8 = op ∧ w.getLsbD 7 = false

/-- The encoding of `i` has the format of the row of `i`. -/
def Statement (i : Instr) : Prop :=
  i.wf = true → ∀ base,
  match i with
  | .singleRead _ _ => ∃ w, encode base i = .command w 0 0 ∧ descriptorOf 0#8 w ∧ w.extractLsb' 16 8 = 0#8
  | .singleWrite _ _ val => ∃ w, encode base i = .command w 0 0 ∧ descriptorOf 1#8 w ∧ w.extractLsb' 16 8 = val
  | .burstRead _ _ n buf buflen => ∃ w, encode base i = .command w buf buflen ∧ descriptorOf 2#8 w ∧ w.extractLsb' 16 8 = n
  | .wrCr2StartW v => encode base i = .access ⟨base + 0x04, 32, .write v⟩ ∧ v.getLsbD 13 = true ∧ v.getLsbD 10 = false
  | .wrCr2StartR v => encode base i = .access ⟨base + 0x04, 32, .write v⟩ ∧ v.getLsbD 13 = true ∧ v.getLsbD 10 = true
  | .wrCr2NoStart v => encode base i = .access ⟨base + 0x04, 32, .write v⟩ ∧ v.getLsbD 13 = false
  | .rdCr2 => encode base i = .access ⟨base + 0x04, 32, .read⟩
  | .rdIsr => encode base i = .access ⟨base + 0x18, 32, .read⟩
  | .wrTxdr v => encode base i = .access ⟨base + 0x28, 32, .write v⟩
  | .rdTxdr => encode base i = .access ⟨base + 0x28, 32, .read⟩
  | .rdRxdr => encode base i = .access ⟨base + 0x24, 32, .read⟩
  | .facadeRead slave reg => encode base i = .read slave reg
  | .facadeWrite slave reg val => encode base i = .write slave reg val
  | .facadeReadAll slave range buf buflen => encode base i = .readAll slave range buf buflen

/-- The fixed bits of a descriptor word: OP in its byte, bit 7 zero, ARG in its byte. -/
theorem descWord_fixed (op : BitVec 2) (arg reg : Byte) (a7 : Addr7) :
    descriptorOf (op.setWidth 8) (descWord op arg reg a7) ∧ (descWord op arg reg a7).extractLsb' 16 8 = arg := by
  refine ⟨⟨?_, ?_⟩, ?_⟩
  · apply BitVec.eq_of_getLsbD_eq
    intro k hk
    simp only [descWord, BitVec.getLsbD_extractLsb', BitVec.getLsbD_append]
    interval_cases k <;> simp
  · simp only [descWord, BitVec.getLsbD_append]
    simp
  · apply BitVec.eq_of_getLsbD_eq
    intro k hk
    simp only [descWord, BitVec.getLsbD_extractLsb', BitVec.getLsbD_append]
    interval_cases k <;> simp

theorem singleRead (a7 : Addr7) (reg : Byte) : Statement (.singleRead a7 reg) :=
  fun _ _ => ⟨_, rfl, descWord_fixed 0#2 0#8 reg a7⟩

theorem singleWrite (a7 : Addr7) (reg val : Byte) : Statement (.singleWrite a7 reg val) :=
  fun _ _ => ⟨_, rfl, descWord_fixed 1#2 val reg a7⟩

theorem burstRead (a7 : Addr7) (reg n : Byte) (buf buflen : Nat) : Statement (.burstRead a7 reg n buf buflen) :=
  fun _ _ => ⟨_, rfl, descWord_fixed 2#2 n reg a7⟩

theorem wrCr2StartW (v : Word) : Statement (.wrCr2StartW v) := fun h _ => ⟨rfl, by simpa [Instr.wf] using h⟩

theorem wrCr2StartR (v : Word) : Statement (.wrCr2StartR v) := fun h _ => ⟨rfl, by simpa [Instr.wf] using h⟩

theorem wrCr2NoStart (v : Word) : Statement (.wrCr2NoStart v) := fun h _ => ⟨rfl, by simpa [Instr.wf] using h⟩

theorem rdCr2 : Statement .rdCr2 := fun _ _ => rfl

theorem rdIsr : Statement .rdIsr := fun _ _ => rfl

theorem wrTxdr (v : Word) : Statement (.wrTxdr v) := fun _ _ => rfl

theorem rdTxdr : Statement .rdTxdr := fun _ _ => rfl

theorem rdRxdr : Statement .rdRxdr := fun _ _ => rfl

theorem facadeRead (slave : SlaveName) (reg : RegName) : Statement (.facadeRead slave reg) := fun _ _ => rfl

theorem facadeWrite (slave : SlaveName) (reg : RegName) (val : Byte) : Statement (.facadeWrite slave reg val) := fun _ _ => rfl

theorem facadeReadAll (slave : SlaveName) (range : RangeName) (buf buflen : Nat) :
    Statement (.facadeReadAll slave range buf buflen) := fun _ _ => rfl

end Sys2Proof.Laws.RowFormat
end

