-- ==== Sys2Proof/Laws/Registers.lean ====
section
/-! SUPPORT. What each register access can do (spec/40_register_interface.md). -/

namespace Sys2Proof.Machine

@[simp] theorem Effect.commit_done {α : Type} (t : State) (v : α) (s : State) (k : State → α → State) :
    (Effect.done t v).commit s k = k t v := rfl
@[simp] theorem Effect.commit_fault {α : Type} (f : Fault) (s : State) (k : State → α → State) :
    (Effect.fault f : Effect α).commit s k = s.raise f := rfl
@[simp] theorem Effect.commit_refuse {α : Type} (r : Refusal) (s : State) (k : State → α → State) :
    (Effect.refuse r : Effect α).commit s k = s.refuse r := rfl

@[simp] theorem State.beginPhase_ctl (s : State) (v : Word) :
    (s.beginPhase v).ctl = { phase := .addr, sadd7 := cr2Sadd7 v, rw := cr2Dir v, rem := cr2Nbytes v, autoend := cr2Autoend v,
                             shift := s.ctl.shift } := by
  unfold State.beginPhase; split <;> rfl
@[simp] theorem State.beginPhase_cr2 (s : State) (v : Word) : (s.beginPhase v).reg.cr2 = v := by
  unfold State.beginPhase; split <;> rfl
@[simp] theorem State.beginPhase_txdata (s : State) (v : Word) : (s.beginPhase v).reg.txdata = s.reg.txdata := by
  unfold State.beginPhase; split <;> rfl
@[simp] theorem State.beginPhase_rxdata (s : State) (v : Word) : (s.beginPhase v).reg.rxdata = s.reg.rxdata := by
  unfold State.beginPhase; split <;> rfl
@[simp] theorem State.beginPhase_upstream (s : State) (v : Word) : (s.beginPhase v).reg.upstream = s.reg.upstream := by
  unfold State.beginPhase; split <;> rfl
@[simp] theorem State.beginPhase_seq (s : State) (v : Word) : (s.beginPhase v).seq = s.seq := by
  unfold State.beginPhase; split <;> rfl
@[simp] theorem State.beginPhase_mem (s : State) (v : Word) : (s.beginPhase v).mem = s.mem := by
  unfold State.beginPhase; split <;> rfl
@[simp] theorem State.beginPhase_faults (s : State) (v : Word) : (s.beginPhase v).faults = s.faults := by
  unfold State.beginPhase; split <;> rfl
@[simp] theorem State.beginPhase_refused (s : State) (v : Word) : (s.beginPhase v).refused = s.refused := by
  unfold State.beginPhase; split <;> rfl
@[simp] theorem State.beginPhase_reply (s : State) (v : Word) : (s.beginPhase v).reply = s.reply := by
  unfold State.beginPhase; split <;> rfl
@[simp] theorem State.beginPhase_env (s : State) (v : Word) : (s.beginPhase v).env = s.env := by
  unfold State.beginPhase; split <;> rfl
@[simp] theorem State.beginPhase_params (s : State) (v : Word) : (s.beginPhase v).params = s.params := by
  unfold State.beginPhase; split <;> rfl

/-- From Idle a START goes out and BUSY is set, from TcHold a repeated START goes out and TC is cleared (R66). -/
theorem State.beginPhase_bus {s : State} (v : Word) (h : s.quiescent = true) :
    s.ctl.phase = .idle ∧ (s.beginPhase v).trace = s.trace ++ [.start] ∧ (s.beginPhase v).reg.isr = s.reg.isr.onStart ∨
    s.ctl.phase = .tcHold ∧ (s.beginPhase v).trace = s.trace ++ [.repStart] ∧
      (s.beginPhase v).reg.isr = s.reg.isr.onRepStart := by
  rcases (State.quiescent_iff s).mp h with h | h <;> simp [State.beginPhase, h]

/-- A START write is accepted, or changes nothing but a mark (R66, R68, R120). -/
theorem writeCr2Start_cases (s : State) (v : Word) :
    writeCr2Start s v = .refuse .unsupportedCr2Field ∧ hasUnsupportedField v = true ∨
    writeCr2Start s v = .refuse .zeroNbytes ∧ hasUnsupportedField v = false ∧ cr2Nbytes v = 0#8 ∨
    writeCr2Start s v = .fault .cr2WhileActive ∧ hasUnsupportedField v = false ∧ s.quiescent = false ∧ cr2Nbytes v ≠ 0#8 ∨
    writeCr2Start s v = .done (s.beginPhase v) () ∧ hasUnsupportedField v = false ∧ s.quiescent = true ∧ cr2Nbytes v ≠ 0#8 := by
  unfold writeCr2Start
  cases hasUnsupportedField v <;> cases s.quiescent <;> by_cases h : cr2Nbytes v = 0#8 <;> simp [h]

/-- A write without START is accepted, or changes nothing but a mark (R67, R68). -/
theorem writeCr2NoStart_cases (s : State) (v : Word) :
    writeCr2NoStart s v = .refuse .unsupportedCr2Field ∧ hasUnsupportedField v = true ∨
    writeCr2NoStart s v = .fault .cr2WhileActive ∧ hasUnsupportedField v = false ∧ s.quiescent = false ∨
    writeCr2NoStart s v = .done (s.setCr2 v) () ∧ hasUnsupportedField v = false ∧ s.quiescent = true := by
  unfold writeCr2NoStart
  cases hasUnsupportedField v <;> cases s.quiescent <;> simp

/-- A TXDR write is accepted, or changes nothing but a mark (R71). -/
theorem writeTxdr_cases (s : State) (v : Word) :
    writeTxdr s v = .refuse .unsupportedTxdrBits ∧ txdrHighBits v ≠ 0#24 ∨
    writeTxdr s v = .fault .txdrNotReady ∧ txdrHighBits v = 0#24 ∧ s.ctl.phase ≠ .txNeed ∨
    writeTxdr s v = .done (((s.setTxdata (dataByte v)).setIsr s.reg.isr.onTxWrite).setCtl
        { s.ctl with shift := dataByte v, phase := .txSend }) () ∧
      txdrHighBits v = 0#24 ∧ s.ctl.phase = .txNeed := by
  unfold writeTxdr
  by_cases h : txdrHighBits v = 0#24 <;> by_cases h' : s.ctl.phase = .txNeed <;> simp [h, h']

/-- An RXDR read is accepted, or changes nothing but a mark (R73). -/
theorem readRxdr_cases (s : State) :
    readRxdr s = .fault .rxdrEmpty ∧ s.reg.isr.rxne = false ∨
    readRxdr s = .done (s.setIsr s.reg.isr.onRxRead) (dataWord s.reg.rxdata) ∧ s.reg.isr.rxne = true := by
  unfold readRxdr; cases s.reg.isr.rxne <;> simp

end Sys2Proof.Machine
end

