-- ==== Sys2Proof/Laws/Requests.lean ====
section
/-! SUPPORT. What an instruction, and what a request, can do, said once: `exec_executed` and `runRequest_executed`. -/

namespace Sys2Proof.Machine

/-- The results of an instruction or of a request, each with what the state was; START of a CR2 word is as its row says where the
instruction is well-formed. -/
inductive Executed (wf : Prop) (s : State) : State → Prop where
  | presented {t : State} (h : Presented s t) : Executed wf s t
  | refused (r : Refusal) : Executed wf s (s.refuse r)
  | faulted (f : Fault) : Executed wf s (s.raise f)
  | started (v : Word) (hs : wf → startBit v = true) (hu : hasUnsupportedField v = false) (hq : s.quiescent = true)
      (hn : cr2Nbytes v ≠ 0#8) : Executed wf s (s.beginPhase v)
  | stored (v : Word) (hs : wf → startBit v = false) (hu : hasUnsupportedField v = false) (hq : s.quiescent = true) :
      Executed wf s (s.setCr2 v)
  | replied (v : Word) : Executed wf s (s.setReply v)
  | sent (b : Byte) (hp : s.ctl.phase = .txNeed) :
      Executed wf s (((s.setTxdata b).setIsr s.reg.isr.onTxWrite).setCtl { s.ctl with shift := b, phase := .txSend })
  | received (hr : s.reg.isr.rxne = true) : Executed wf s ((s.setIsr s.reg.isr.onRxRead).setReply (dataWord s.reg.rxdata))

theorem startLine_executed {wf : Prop} (s : State) (v : Word) (hs : wf → startBit v = true) :
    Executed wf s (writeLine s (writeCr2Start s v)) := by
  unfold writeLine
  rcases writeCr2Start_cases s v with ⟨h, _⟩ | ⟨h, _⟩ | ⟨h, _⟩ | ⟨h, hu, hq, hn⟩ <;> rw [h]
  · exact .refused _
  · exact .refused _
  · exact .faulted _
  · exact .started v hs hu hq hn

/-- Every instruction answers a next state, which is one of `Executed`. -/
theorem exec_executed (i : Instr) (s : State) : ∃ t, exec i s = .next t ∧ Executed (i.wf = true) s t := by
  cases i with
  | singleRead a7 reg => exact ⟨_, rfl, .presented (admitSingleRead_presented a7 reg s)⟩
  | singleWrite a7 reg val => exact ⟨_, rfl, .presented (admitSingleWrite_presented a7 reg val s)⟩
  | burstRead a7 reg n buf buflen => exact ⟨_, rfl, .presented (admitBurstRead_presented a7 reg n buf buflen s)⟩
  | wrCr2StartW v => exact ⟨_, rfl, startLine_executed s v (by simp +contextual [Instr.wf, startBit])⟩
  | wrCr2StartR v => exact ⟨_, rfl, startLine_executed s v (by simp +contextual [Instr.wf, startBit])⟩
  | wrCr2NoStart v =>
    refine ⟨_, rfl, ?_⟩
    unfold writeLine
    rcases writeCr2NoStart_cases s v with ⟨h, _⟩ | ⟨h, _⟩ | ⟨h, hu, hq⟩ <;> rw [h]
    · exact .refused _
    · exact .faulted _
    · exact .stored v (by simp [Instr.wf, startBit]) hu hq
  | rdCr2 => exact ⟨_, rfl, .replied _⟩
  | rdIsr => exact ⟨_, rfl, .replied _⟩
  | wrTxdr v =>
    refine ⟨_, rfl, ?_⟩
    unfold writeLine
    rcases writeTxdr_cases s v with ⟨h, _⟩ | ⟨h, _⟩ | ⟨h, _, hp⟩ <;> rw [h]
    · exact .refused _
    · exact .faulted _
    · exact .sent (dataByte v) hp
  | rdTxdr => exact ⟨_, rfl, .replied _⟩
  | rdRxdr =>
    refine ⟨_, rfl, ?_⟩
    unfold readLine
    rcases readRxdr_cases s with ⟨h, _⟩ | ⟨h, hr⟩ <;> rw [h]
    · exact .faulted _
    · exact .received hr
  | facadeRead slave reg => exact (execFacadeRead_presented slave reg s).imp fun _ h => ⟨h.1, .presented h.2⟩
  | facadeWrite slave reg val => exact (execFacadeWrite_presented slave reg val s).imp fun _ h => ⟨h.1, .presented h.2⟩
  | facadeReadAll slave range buf buflen =>
    exact (execFacadeReadAll_presented slave range buf buflen s).imp fun _ h => ⟨h.1, .presented h.2⟩

theorem Executed.of_wf {wf : Prop} {s t : State} (hw : wf) (h : Executed wf s t) : Executed True s t := by
  cases h with
  | presented h => exact .presented h
  | refused r => exact .refused r
  | faulted f => exact .faulted f
  | started v hs hu hq hn => exact .started v (fun _ => hs hw) hu hq hn
  | stored v hs hu hq => exact .stored v (fun _ => hs hw) hu hq
  | replied v => exact .replied v
  | sent b hp => exact .sent b hp
  | received hr => exact .received hr

/-- So does every request. -/
theorem runRequest_executed (r : Request) (s : State) : ∃ t, runRequest r s = .next t ∧ Executed True s t := by
  unfold runRequest
  split
  · rename_i i hi
    obtain ⟨t, ht, he⟩ := exec_executed i s
    exact ⟨t, ht, he.of_wf (decode_wf hi)⟩
  · exact ⟨_, rfl, .presented (admitReserved_presented s)⟩
  · exact ⟨_, rfl, .refused _⟩
  · exact ⟨_, rfl, .refused _⟩

theorem runRequest_next {r : Request} {s t : State} (h : runRequest r s = .next t) : Executed True s t := by
  obtain ⟨u, hu, he⟩ := runRequest_executed r s
  rw [hu] at h
  cases h
  exact he

end Sys2Proof.Machine
end

