-- ==== Sys2Proof/Laws/Step.lean ====
section
/-! SUPPORT. What one step can do, said once: `step_next_cases`. -/

namespace Sys2Proof.Machine

/-- The sequencer has a step only while a command is in progress: the micro-step at `seq.pc` (R88). -/
theorem sequencerStep_cases {s t : State} (h : sequencerStep s = some t) :
    s.seq.status = .busy ∧ ∃ m, currentMicro s = some m ∧ microStep m s = some t := by
  unfold sequencerStep at h
  split at h
  · split at h
    · exact ⟨‹_›, _, ‹_›, h⟩
    · exact absurd h (by simp)
  all_goals exact absurd h (by simp)

/-- The mark checks of a step (R121). -/
theorem step_of_unmarked {s : State} (hf : s.faults = []) (hr : s.refused = none) : step s = move s := by
  simp [step, advance, hf, hr]

theorem step_next_unmarked {s t : State} (h : step s = .next t) : s.faults = [] ∧ s.refused = none ∧ move s = .next t := by
  unfold step advance at h
  split at h
  · simp at h
  · split at h
    · simp at h
    · exact ⟨‹_›, ‹_›, h⟩

theorem urgent_iff (s : State) :
    urgent s = true ↔
      ∃ x rest, s.env.inbox = x :: rest ∧ x.wait = false ∧ (isAccess x.request = false ∨ s.seq.status ≠ .busy) := by
  unfold urgent
  split <;> simp_all

/-- The urgency of the caller's next request does not look at the rest of the environment. -/
theorem urgent_setEnv {s : State} {e : Env} (he : e.inbox = s.env.inbox) : urgent (s.setEnv e) = urgent s := by
  unfold urgent
  rw [show (s.setEnv e).env.inbox = s.env.inbox from he]
  rfl

/-- The program side's step: an urgent request, the sequencer's micro-step while a command is in progress, else the caller's next
request. -/
theorem engineMove_cases {s t : State} (h : engineMove s = .next t) :
    s.seq.status = .busy ∧ sequencerStep s = some t ∨ s.seq.status = .busy ∧ t = s ∧ sequencerStep s = none ∨
    (urgent s = true ∨ s.seq.status ≠ .busy) ∧ present s = .next t := by
  unfold engineMove at h
  split at h
  · exact .inr (.inr ⟨.inl ‹_›, h⟩)
  · split at h
    · rename_i hb
      split at h
      · exact .inl ⟨hb, by simp_all⟩
      · exact .inr (.inl ⟨hb, by simp_all, ‹_›⟩)
    · exact .inr (.inr ⟨.inr ‹_›, h⟩)

theorem present_cases {s t : State} (h : present s = .next t) :
    s.env.inbox = [] ∧ t = s ∨
    ∃ x rest, s.env.inbox = x :: rest ∧ runRequest x.request (s.setEnv { s.env with inbox := rest }) = .next t := by
  unfold present at h
  split at h
  · exact .inl ⟨‹_›, by simp_all⟩
  · exact .inr ⟨_, _, ‹_›, h⟩

theorem controllerMove_cases {s t : State} (h : controllerMove s = .next t) :
    controllerStep s = some t ∨ controllerStep s = none ∧ t = s := by
  unfold controllerMove at h
  split at h
  · exact .inl (by simp_all)
  · exact .inr (by simp_all)

/-- Who moves: an agent that has a step; in a state that differs from `s` in the schedule's entries of the environment at most. -/
theorem nextMover_cases (s : State) :
    ∃ e : Env, e.inbox = s.env.inbox ∧ (nextMover s).2 = s.setEnv e ∧
      ((nextMover s).1 = none ∧ engineEnabled s = false ∧ controllerStep s = none ∨
        (nextMover s).1 = some .sequencer ∧ engineEnabled s = true ∨
        (nextMover s).1 = some .controller ∧ (controllerStep s).isSome = true) := by
  unfold nextMover
  split
  · exact ⟨s.env, rfl, rfl, .inr (.inl ⟨rfl, by simp [engineEnabled, *]⟩)⟩
  · split
    · exact ⟨s.env, rfl, rfl, .inl ⟨rfl, ‹_›, by simpa using ‹(controllerStep s).isSome = false›⟩⟩
    · exact ⟨s.env, rfl, rfl, .inr (.inl ⟨rfl, ‹_›⟩)⟩
    · exact ⟨s.env, rfl, rfl, .inr (.inr ⟨rfl, ‹_›⟩)⟩
    · obtain ⟨a, e, he, hp⟩ := State.pickAgent_cases s
      rw [hp]
      cases a
      · exact ⟨e, he, rfl, .inr (.inl ⟨rfl, ‹_›⟩)⟩
      · exact ⟨e, he, rfl, .inr (.inr ⟨rfl, ‹_›⟩)⟩

/-- What one move from `s` to `t` can be, the schedule's entry `e` aside: nothing moved, or the sequencer took its micro-step, or
the controller took its step, or the caller's next request ran, which a register-access line never does while a command is in
progress. -/
def Moves (s t : State) (e : Env) : Prop :=
  t = s.setEnv e ∨
  s.seq.status = .busy ∧ sequencerStep (s.setEnv e) = some t ∨
  controllerStep (s.setEnv e) = some t ∨
  ∃ x rest, s.env.inbox = x :: rest ∧ (x.wait = false ∧ isAccess x.request = false ∨ s.seq.status ≠ .busy) ∧
    runRequest x.request (s.setEnv { e with inbox := rest }) = .next t

theorem engineMove_moves {s t : State} {e : Env} (he : e.inbox = s.env.inbox) (h : engineMove (s.setEnv e) = .next t) :
    Moves s t e := by
  rcases engineMove_cases h with hb | ⟨_, ht, _⟩ | ⟨hb, hp⟩
  · exact .inr (.inl hb)
  · exact .inl ht
  · rcases present_cases hp with ⟨_, ht⟩ | ⟨x, rest, hx, hrun⟩
    · exact .inl ht
    · have hx' : s.env.inbox = x :: rest := he ▸ hx
      refine .inr (.inr (.inr ⟨x, rest, hx', ?_, hrun⟩))
      rcases hb with hu | hb
      · obtain ⟨y, ys, hy, hw, ha⟩ := (urgent_iff s).1 (urgent_setEnv he ▸ hu)
        obtain ⟨rfl, rfl⟩ := List.cons.inj (hx'.symm.trans hy)
        exact ha.imp (⟨hw, ·⟩) id
      · exact .inr hb

theorem controllerMove_moves {s t : State} {e : Env} (h : controllerMove (s.setEnv e) = .next t) : Moves s t e := by
  rcases controllerMove_cases h with hc | ⟨_, ht⟩
  · exact .inr (.inr (.inl hc))
  · exact .inl ht

/-- Everything a step to a next state can be: the state carries no mark, and it moved. -/
theorem step_next_cases {s t : State} (h : step s = .next t) :
    s.faults = [] ∧ s.refused = none ∧ ∃ e : Env, e.inbox = s.env.inbox ∧ Moves s t e := by
  obtain ⟨hf, hr, hm⟩ := step_next_unmarked h
  obtain ⟨e, he, hs, _⟩ := nextMover_cases s
  refine ⟨hf, hr, e, he, ?_⟩
  unfold move at hm
  split at hm <;> rename_i hn <;> rw [hn] at hs <;> subst hs
  · exact .inl (by cases hm; rfl)
  · exact engineMove_moves he hm
  · exact controllerMove_moves hm

end Sys2Proof.Machine
end

