-- ==== Sys2Proof/Laws/Sequencer.lean ====
section
/-! SUPPORT. What a sequencer step can do, said once (spec/42_transactions.md R88 to R93): `sequencerStep_stepped`. -/

namespace Sys2Proof.Machine

/-- The results of a sequencer step, each with what the state was. -/
inductive Stepped (s : State) : State → Prop where
  | faulted (f : Fault)
      (h : f = .cr2WhileActive ∧ (∃ v, currentMicro s = some (.wrCr2 v) ∨ currentMicro s = some (.wrCr2Burst v)) ∧
             s.quiescent = false ∨
           f = .txdrNotReady ∧ (∃ b, currentMicro s = some (.wrTx b)) ∧ s.ctl.phase ≠ .txNeed ∨
           f = .rxdrEmpty ∧ (∃ d, currentMicro s = some (.rdRx d)) ∧ s.reg.isr.rxne = false) :
      Stepped s (s.raise f)
  | refused (r : Refusal)
      (h : ∃ v, (currentMicro s = some (.wrCr2 v) ∨ currentMicro s = some (.wrCr2Burst v)) ∧
           (r = .unsupportedCr2Field ∧ hasUnsupportedField v = true ∨ r = .zeroNbytes ∧ cr2Nbytes v = 0#8)) :
      Stepped s (s.refuse r)
  | started (v : Word) (hm : currentMicro s = some (.wrCr2 v)) (hu : hasUnsupportedField v = false) (hq : s.quiescent = true)
      (hn : cr2Nbytes v ≠ 0#8) :
      Stepped s ((s.beginPhase v).setPc (s.seq.pc + 1))
  | startedBurst (v : Word) (hm : currentMicro s = some (.wrCr2Burst v)) (hu : hasUnsupportedField v = false)
      (hq : s.quiescent = true) (hn : cr2Nbytes v ≠ 0#8) :
      Stepped s ((s.beginPhase v).setSeq { s.seq with i := 0#8, pc := s.seq.pc + 1 })
  | passed (f : WaitFlag) (hm : currentMicro s = some (.wait f)) (hf : flagSet f s.reg.isr.word = true) :
      Stepped s (s.setPc (s.seq.pc + 1))
  | polled (f : WaitFlag) (hm : currentMicro s = some (.wait f)) (hf : flagSet f s.reg.isr.word = false) : Stepped s s
  | sent (b : Byte) (hm : currentMicro s = some (.wrTx b)) (hp : s.ctl.phase = .txNeed) :
      Stepped s
        ((((s.setTxdata b).setIsr s.reg.isr.onTxWrite).setCtl { s.ctl with shift := b, phase := .txSend }).setPc (s.seq.pc + 1))
  | result (hm : currentMicro s = some (.rdRx .result)) (hr : s.reg.isr.rxne = true) :
      Stepped s ((s.setIsr s.reg.isr.onRxRead).setSeq { s.seq with result := some s.reg.rxdata, pc := s.seq.pc + 1 })
  | buffered (hm : currentMicro s = some (.rdRx .buffer)) (hr : s.reg.isr.rxne = true) :
      Stepped s (((s.setIsr s.reg.isr.onRxRead).writeMem (s.seq.buf + s.seq.i.toNat) s.reg.rxdata).setSeq
        { s.seq with i := s.seq.i + 1#8,
                     pc := if (s.seq.i + 1#8).toNat < s.seq.n.toNat then s.seq.pc - 1 else s.seq.pc + 1 })
  | finished (hm : currentMicro s = some .done) (hq : s.quiescent = true) : Stepped s (s.setSeq { s.seq with status := .done })

@[simp] theorem dataByte_dataWord (b : Byte) : dataByte (dataWord b) = b := by
  apply BitVec.eq_of_getLsbD_eq
  intro k hk
  simp [dataByte, dataWord, hk, Nat.lt_trans hk (by decide : 8 < 32)]

@[simp] theorem txdrHighBits_dataWord (b : Byte) : txdrHighBits (dataWord b) = 0#24 := by
  apply BitVec.eq_of_getLsbD_eq
  intro k hk
  simp [txdrHighBits, dataWord]

theorem sequencerStep_stepped {s t : State} (h : sequencerStep s = some t) : s.seq.status = .busy ∧ Stepped s t := by
  obtain ⟨hb, m, hm, hs⟩ := sequencerStep_cases h
  refine ⟨hb, ?_⟩
  cases m with
  | wrCr2 v =>
    obtain rfl : microWrCr2 s v = t := by simpa [microStep] using hs
    unfold microWrCr2
    rcases writeCr2Start_cases s v with ⟨h, hu⟩ | ⟨h, _, hn⟩ | ⟨h, _, hq, _⟩ | ⟨h, hu, hq, hn⟩ <;> rw [h]
    · exact .refused _ ⟨v, .inl hm, .inl ⟨rfl, hu⟩⟩
    · exact .refused _ ⟨v, .inl hm, .inr ⟨rfl, hn⟩⟩
    · exact .faulted _ (.inl ⟨rfl, ⟨v, .inl hm⟩, hq⟩)
    · exact .started v hm hu hq hn
  | wrCr2Burst v =>
    obtain rfl : microWrCr2Burst s v = t := by simpa [microStep] using hs
    unfold microWrCr2Burst
    rcases writeCr2Start_cases s v with ⟨h, hu⟩ | ⟨h, _, hn⟩ | ⟨h, _, hq, _⟩ | ⟨h, hu, hq, hn⟩ <;> rw [h]
    · exact .refused _ ⟨v, .inr hm, .inl ⟨rfl, hu⟩⟩
    · exact .refused _ ⟨v, .inr hm, .inr ⟨rfl, hn⟩⟩
    · exact .faulted _ (.inl ⟨rfl, ⟨v, .inr hm⟩, hq⟩)
    · simpa using Stepped.startedBurst v hm hu hq hn
  | wait f =>
    obtain rfl : microWait s f = t := by simpa [microStep] using hs
    unfold microWait readIsr
    cases hf : flagSet f s.reg.isr.word
    · simpa [hf, State.setPc, State.setSeq] using Stepped.polled f hm hf
    · simpa [hf] using Stepped.passed f hm hf
  | wrTx b =>
    obtain rfl : microWrTx s b = t := by simpa [microStep] using hs
    unfold microWrTx
    rcases writeTxdr_cases s (dataWord b) with ⟨_, h⟩ | ⟨h, _, hp⟩ | ⟨h, _, hp⟩
    · exact absurd (txdrHighBits_dataWord b) h
    · rw [h]; exact .faulted _ (.inr (.inl ⟨rfl, ⟨b, hm⟩, hp⟩))
    · rw [h]; simpa using Stepped.sent b hm hp
  | rdRx d =>
    cases d with
    | result =>
      obtain rfl : microRdRxResult s = t := by simpa [microStep] using hs
      unfold microRdRxResult
      rcases readRxdr_cases s with ⟨h, hr⟩ | ⟨h, hr⟩ <;> rw [h]
      · exact .faulted _ (.inr (.inr ⟨rfl, ⟨_, hm⟩, hr⟩))
      · simpa using Stepped.result hm hr
    | buffer =>
      obtain rfl : microRdRxBuffer s = t := by simpa [microStep] using hs
      unfold microRdRxBuffer
      rcases readRxdr_cases s with ⟨h, hr⟩ | ⟨h, hr⟩ <;> rw [h]
      · exact .faulted _ (.inr (.inr ⟨rfl, ⟨_, hm⟩, hr⟩))
      · simpa using Stepped.buffered hm hr
  | done =>
    cases hq : s.quiescent
    · simp [microStep, hq] at hs
    · obtain rfl : s.setSeq { s.seq with status := .done } = t := by simpa [microStep, hq] using hs
      exact .finished hm hq

end Sys2Proof.Machine
end

