-- ==== Sys2Proof/Laws/Trace.lean ====
section
/-! SUPPORT. The two readings of the bus trace that claims use (spec/41_controller_fsm.md R86; spec/42_transactions.md R98), event by
event. -/

namespace Sys2Proof.Machine

theorem busPos_append (t l : List BusEvent) : busPos (t ++ l) = l.foldl busAfter (busPos t) := by
  simp [busPos, List.foldl_append]

theorem phaseData_append (t l : List BusEvent) : phaseData (t ++ l) = l.foldl phaseDataNext (phaseData t) := by
  simp [phaseData, List.foldl_append]

@[simp] theorem busAfter_some (p : BusPos) (ev : BusEvent) : busAfter (some p) ev = busNext p ev := rfl

@[simp] theorem phaseDataNext_sData (ds : List Byte) (b : Byte) : phaseDataNext ds (.sData b) = ds ++ [b] := rfl

end Sys2Proof.Machine
end

