-- ==== Sys2Proof/Tests/RefSlave.lean ====
section
/-! SUPPORT. The reference slave of spec/20_memory.md R38, test support only: which traces its answers agree with, and the traces of
spec/95_test_vectors.md it is used for. -/

open Sys2Proof Sys2Proof.Machine

namespace Sys2Proof.Tests

/-- The slaves on the bus, their registers (0 where none is listed), and where the transfer stands: the slave addressed, whether the
next byte written is the sub-address, the pointer, the increment flag, and the answer the slave owes. -/
structure RefSlave where
  addrs : List Addr7
  regs  : List ((Addr7 × Nat) × Byte)
  here  : Addr7
  sub   : Bool
  p     : Nat
  inc   : Bool
  owed  : Ack
deriving DecidableEq, Repr

/-- Register `p` of the slave addressed. -/
def RefSlave.reg (r : RefSlave) : Byte :=
  match r.regs.find? fun e => decide (e.1 = (r.here, r.p)) with
  | some e => e.2
  | none => 0#8

/-- `p <- p + 1` modulo 128, if `inc`. -/
def RefSlave.advance (r : RefSlave) : RefSlave := { r with p := if r.inc then (r.p + 1) % 128 else r.p }

/-- The slave after one event, or none for an answer it would not give. -/
def RefSlave.after (r : RefSlave) (ev : BusEvent) : Option RefSlave :=
  match ev with
  | .addrByte a _ => some { r with here := a, sub := true, owed := if a ∈ r.addrs then .ack else .nack }
  | .mWrite b =>
    if r.sub then some { r with p := (b &&& 0x7F#8).toNat, inc := b.getLsbD 7, sub := false, owed := .ack }
    else some { r with regs := ((r.here, r.p), b) :: r.regs, owed := .ack }.advance
  | .sAck => if r.owed = .ack then some r else none
  | .sNack => if r.owed = .nack then some r else none
  | .sData b => if b = r.reg then some r.advance else none
  | .start => some r
  | .repStart => some r
  | .mAck => some r
  | .mNack => some r
  | .stop => some r

/-- The answers in the trace are the reference slave's. -/
def RefSlave.agrees (r : RefSlave) (trace : List BusEvent) : Bool :=
  (trace.foldl (fun s ev => s.bind fun q => q.after ev) (some r)).isSome

/-- The slaves of 95's vectors, with the registers `regs`. -/
def refSlave (regs : List ((Addr7 × Nat) × Byte)) : RefSlave :=
  { addrs := [0x19#7, 0x1E#7], regs := regs, here := 0#7, sub := true, p := 0, inc := false, owed := .ack }

/-- P2's trace: the byte written is the byte read back; another byte would not be. -/
theorem test_refSlave_roundTrip :
    let front := [.start, .addrByte 0x19#7 .write, .sAck, .mWrite 0x20#8, .sAck, .mWrite 0x57#8, .sAck, .repStart,
      .addrByte 0x19#7 .write, .sAck, .mWrite 0x20#8, .sAck, .repStart, .addrByte 0x19#7 .read, .sAck]
    (refSlave []).agrees (front ++ [.sData 0x57#8, .mNack, .stop]) = true ∧
    (refSlave []).agrees (front ++ [.sData 0x58#8, .mNack, .stop]) = false := by decide

/-- P6's burst: the pointer advances from register to register. -/
theorem test_refSlave_burst :
    (refSlave [((0x1E#7, 0x68), 0x01#8), ((0x1E#7, 0x69), 0x02#8)]).agrees
      [.start, .addrByte 0x1E#7 .write, .sAck, .mWrite 0xE8#8, .sAck, .repStart, .addrByte 0x1E#7 .read, .sAck, .sData 0x01#8, .mAck,
        .sData 0x02#8, .mNack, .stop] = true := by decide

/-- P5: an address nobody has is not acknowledged. -/
theorem test_refSlave_absent :
    (refSlave []).agrees [.start, .addrByte 0x2A#7 .write, .sNack, .stop] = true ∧
    (refSlave []).agrees [.start, .addrByte 0x2A#7 .write, .sAck] = false := by decide

end Sys2Proof.Tests
end

