-- ==== Sys2Proof/Tests/Slice0.lean ====
section
/-! SUPPORT. The model's own tests, each from a row of spec/95_test_vectors.md (named in its comment) or from the rule named there,
and for every obligation with hypotheses a witness that meets them. -/

open Sys2Proof Sys2Proof.Machine

namespace Sys2Proof.Tests

/-! ### Helpers -/

/-- The outcome is a next state that passes `p`. -/
def nextIs (o : Host.Outcome State Fault Refusal) (p : State → Bool) : Bool :=
  match o with
  | .next t => p t
  | .fault _ => false
  | .refused _ => false

/-- The flags R87 gives a phase. -/
def flagsOf (p : Phase) : Isr :=
  { txe := decide (p ≠ .txSend), txis := decide (p = .txNeed), rxne := false, nackf := false, stopf := false,
    tc := decide (p = .tcHold), busy := decide (p ≠ .idle) }

/-- The parameters with R6's values for tests: the two addresses and the documented bindings. -/
def testParams : Params :=
  { base := 0x40005400
    slaves := [⟨.accelerometer, 0x19#7⟩, ⟨.magnetometer, 0x1E#7⟩]
    bind := [⟨.magnetometer, .whoAmI, 0x4F#8⟩, ⟨.accelerometer, .whoAmI, 0x0F#8⟩, ⟨.accelerometer, .ctrl, 0x20#8⟩]
    ranges := []
    clocked := true
    callerMem := [⟨0, 0x40005400⟩, ⟨0x4000542C, 0x1000⟩] }

/-- What an upstream collaborator may leave: the controller enabled, some timing, nothing else. -/
def testUpstream : Upstream :=
  { cr1 := 0x00000001#32, oar1 := 0#32, oar2 := 0#32, timingr := 0x00000001#32, timeoutr := 0#32, icr := 0#32, pecr := 0#32 }

/-- The state after reset, with these. -/
def started : State := State.resetWith testParams testUpstream

/-- Reset, but in phase `p` of a transfer with slave 0x19. -/
def phaseState (p : Phase) (rw : Dir) (rem : Byte) (ae : Bool) : State :=
  { started with
    reg := { started.reg with isr := flagsOf p, cr2 := if p = .addr then cr2Value 0x19#7 rw rem ae else 0#32 }
    ctl := { phase := p, sadd7 := 0x19#7, rw := rw, rem := rem, autoend := ae, shift := 0#8 } }

/-- `s` with answers and a schedule fixed in advance. -/
def withDraws (s : State) (acks : List Ack) (bytes : List Byte) (sched : List Agent) : State :=
  s.setEnv { s.env with acks := acks, bytes := bytes, sched := sched }

/-- `s` with the flag RXNE set and `b` in RXDR. -/
def withByte (s : State) (b : Byte) : State :=
  { s with reg := { s.reg with rxdata := b, isr := { s.reg.isr with rxne := true } } }

/-- `s` with the command `cmd 0x19, 0x20, 0x57` (for a burst, 2 bytes to 0x100) in progress at index `pc`. -/
def running (s : State) (cmd : Shape) (pc : Nat) : State :=
  s.setSeq { s.seq with status := .busy, cmd := cmd, a7 := 0x19#7, reg := 0x20#8, val := 0x57#8, n := 2#8, buf := 0x100, buflen := 2,
                        pc := pc }

/-- `s` with the bindings of R108 and the test ranges of 95 L1-A2, and one range on each side of its ends. -/
def bound (s : State) : State :=
  { s with params := { s.params with
      bind := s.params.bind ++ [⟨.magnetometer, .outXL, 0x68#8⟩, ⟨.magnetometer, .outZH, 0x6E#8⟩]
      ranges := [⟨.magnetometer, .outXYZ, .outXL, .outZH⟩, ⟨.magnetometer, .other 0, .outZH, .outXL⟩,
                 ⟨.magnetometer, .other 1, .outXL, .outXL⟩, ⟨.magnetometer, .other 2, .outXL, .other 9⟩] } }

/-- A SINGLE_WRITE whose first data byte is out: the sequencer polls TXIS, the controller has its transmit step. -/
def writing : State :=
  let s := running (phaseState .txSend .write 2#8 false) .singleWrite 3
  { s with reg := { s.reg with cr2 := 0x00020032#32, txdata := 0x20#8 }, ctl := { s.ctl with shift := 0x20#8 },
           trace := [.start, .addrByte 0x19#7 .write, .sAck] }

/-- A SINGLE_READ whose byte has come: the sequencer has its RDRX, the controller its end step. -/
def reading : State :=
  let s := withByte (running (phaseState .endPhase .read 0#8 true) .singleRead 6) 0x33#8
  { s with
    reg := { s.reg with cr2 := 0x02010432#32 }
    trace := [.start, .addrByte 0x19#7 .write, .sAck, .mWrite 0x20#8, .sAck, .repStart, .addrByte 0x19#7 .read, .sAck, .sData 0x33#8,
              .mNack] }

/-- A BURST_READ of two bytes whose first byte has come. -/
def bursting : State :=
  let s := withByte (running (phaseState .rxRecv .read 1#8 true) .burstRead 6) 0x01#8
  { s with
    reg := { s.reg with cr2 := 0x02020432#32 }
    trace := [.start, .addrByte 0x19#7 .write, .sAck, .mWrite 0xA0#8, .sAck, .repStart, .addrByte 0x19#7 .read, .sAck, .sData 0x01#8,
              .mAck] }

/-- A SINGLE_READ whose address was not acknowledged (95 L2.4 row 2). -/
def stalled : State :=
  let s := running (phaseState .idle .write 1#8 false) .singleRead 1
  { s with
    reg := { s.reg with isr := { s.reg.isr with nackf := true, stopf := true } }
    trace := [.start, .addrByte 0x19#7 .write, .sNack, .stop] }

/-! ### Well-formedness: an ill-formed term for each check -/

theorem test_wf_startW_needs_start : (Instr.wrCr2StartW 0x00010032#32).wf = false := by decide
theorem test_wf_startW_needs_write : (Instr.wrCr2StartW 0x00012432#32).wf = false := by decide
theorem test_wf_startR_needs_start : (Instr.wrCr2StartR 0x02010432#32).wf = false := by decide
theorem test_wf_startR_needs_read : (Instr.wrCr2StartR 0x02012032#32).wf = false := by decide
theorem test_wf_noStart_needs_no_start : (Instr.wrCr2NoStart 0x00002032#32).wf = false := by decide
theorem test_wf_startW_holds : (Instr.wrCr2StartW 0x00012032#32).wf = true := by decide

/-! ### Decoding: a word for every constructor, from R50, R56, R63 and R65 -/

theorem test_decode_singleRead : decodeTableWord 32 0x00000F19 = some (.singleRead 0x19#7 0x0F#8) := by decide
theorem test_decode_singleWrite : decodeTableWord 32 0x01572019 = some (.singleWrite 0x19#7 0x20#8 0x57#8) := by decide
theorem test_decode_burstRead :
    decode 0 (.command 0x0206681E#32 0x20000000 6) = .instr (.burstRead 0x1E#7 0x68#8 6#8 0x20000000 6) := by decide
/-- L2.1 row 14: a count of 0 decodes; admission rejects it. -/
theorem test_decode_burst_of_zero : decodeTableWord 32 0x0200681E = some (.burstRead 0x1E#7 0x68#8 0#8 0 0) := by decide
/-- L2.1 rows 15 to 18. -/
theorem test_decode_reserved :
    [0x03000F19, 0x00010F19, 0x00000F99, 0x04000F19].map (decodeTableWord 32) = [none, none, none, none] := by decide
theorem test_decode_wrCr2StartW :
    decode 0x40005400 (.access ⟨0x40005404, 32, .write 0x0001203C#32⟩) = .instr (.wrCr2StartW 0x0001203C#32) := by decide
theorem test_decode_wrCr2StartR :
    decode 0x40005400 (.access ⟨0x40005404, 32, .write 0x0206243C#32⟩) = .instr (.wrCr2StartR 0x0206243C#32) := by decide
theorem test_decode_wrCr2NoStart :
    decode 0x40005400 (.access ⟨0x40005404, 32, .write 0x00000432#32⟩) = .instr (.wrCr2NoStart 0x00000432#32) := by decide
theorem test_decode_rdCr2 : decode 0x40005400 (.access ⟨0x40005404, 32, .read⟩) = .instr .rdCr2 := by decide
theorem test_decode_rdIsr : decode 0x40005400 (.access ⟨0x40005418, 32, .read⟩) = .instr .rdIsr := by decide
theorem test_decode_wrTxdr :
    decode 0x40005400 (.access ⟨0x40005428, 32, .write 0x0F#32⟩) = .instr (.wrTxdr 0x0F#32) := by decide
theorem test_decode_rdTxdr : decode 0x40005400 (.access ⟨0x40005428, 32, .read⟩) = .instr .rdTxdr := by decide
theorem test_decode_rdRxdr : decode 0x40005400 (.access ⟨0x40005424, 32, .read⟩) = .instr .rdRxdr := by decide
theorem test_decode_facadeRead :
    decode 0 (.read .accelerometer .whoAmI) = .instr (.facadeRead .accelerometer .whoAmI) := by decide
theorem test_decode_facadeWrite :
    decode 0 (.write .accelerometer .ctrl 0x57#8) = .instr (.facadeWrite .accelerometer .ctrl 0x57#8) := by decide
theorem test_decode_facadeReadAll :
    decode 0 (.readAll .magnetometer .outXYZ 0x20000000 6) = .instr (.facadeReadAll .magnetometer .outXYZ 0x20000000 6) := by decide
/-- L2.2 rows 19 to 24. -/
theorem test_decode_refused_accesses :
    decode 0x40005400 (.access ⟨0x40005418, 32, .write 0#32⟩) = .readOnlyRegister ∧
    decode 0x40005400 (.access ⟨0x40005424, 32, .write 0#32⟩) = .readOnlyRegister ∧
    decode 0x40005400 (.access ⟨0x40005400, 32, .read⟩) = .unsupportedAccess ∧
    decode 0x40005400 (.access ⟨0x4000541A, 32, .read⟩) = .unsupportedAccess ∧
    decode 0x40005400 (.access ⟨0x40005418, 8, .read⟩) = .unsupportedAccess ∧
    decode 0x40005400 (.access ⟨0x4000542C, 32, .read⟩) = .unsupportedAccess := by decide

/-- L2.1 rows 1 to 8. -/
theorem test_cr2_values :
    [cr2Value 0x19#7 .write 1#8 false, cr2Value 0x19#7 .write 2#8 false, cr2Value 0x19#7 .read 1#8 true,
      cr2Value 0x1E#7 .write 1#8 false, cr2Value 0x1E#7 .read 6#8 true, cr2Value 0x1E#7 .read 255#8 true,
      cr2Value 0x00#7 .write 1#8 false, cr2Value 0x7F#7 .read 1#8 true] =
    [0x00012032#32, 0x00022032#32, 0x02012432#32, 0x0001203C#32, 0x0206243C#32, 0x02FF243C#32, 0x00012000#32, 0x020124FE#32] := by
  decide
/-- L2.1 rows 19 to 23. -/
theorem test_bus_bytes :
    subAddress .burstRead 0x68#8 = 0xE8#8 ∧ subAddress .burstRead 0xE8#8 = 0xE8#8 ∧ subAddress .singleRead 0xA5#8 = 0xA5#8 ∧
    addressByte 0x19#7 .read = 0x33#8 ∧ addressByte 0x1E#7 .write = 0x3C#8 := by decide

/-! ### Register accesses (95 L2.2) -/

/-- Row 1. -/
theorem test_rdIsr_reset : nextIs (exec .rdIsr started) (fun t => t.reply == some 0x00000001#32) = true := by decide
/-- Row 4. -/
theorem test_rdIsr_txNeed :
    nextIs (exec .rdIsr (phaseState .txNeed .write 1#8 false)) (fun t => t.reply == some 0x00008003#32) = true := by decide
/-- Row 2. -/
theorem test_startW_idle :
    nextIs (exec (.wrCr2StartW 0x00012032#32) started) (fun t =>
      t.trace == [.start] && t.ctl.phase == .addr && t.reg.isr.word == 0x00008001#32 && t.reg.cr2 == 0x00012032#32) = true := by decide
/-- Row 15: the refusal is decided before the fault. -/
theorem test_startW_refused_first :
    nextIs (exec (.wrCr2StartW 0x00016032#32) (phaseState .txNeed .write 1#8 false)) (fun t =>
      t.refused == some .unsupportedCr2Field && t.faults == []) = true := by decide
/-- Row 9. -/
theorem test_startR_tcHold :
    nextIs (exec (.wrCr2StartR 0x02012432#32) (phaseState .tcHold .write 0#8 false)) (fun t =>
      t.trace == [.repStart] && t.reg.isr.word == 0x00008001#32 && t.ctl.phase == .addr && t.ctl.rw == .read) = true := by decide
/-- Row 8. -/
theorem test_startR_active :
    nextIs (exec (.wrCr2StartR 0x02012432#32) (phaseState .txNeed .write 1#8 false)) (fun t =>
      t.faults == [.cr2WhileActive] && t.trace == []) = true := by decide
/-- Row 16. -/
theorem test_noStart :
    nextIs (exec (.wrCr2NoStart 0x00000032#32) started) (fun t =>
      t.reg.cr2 == 0x00000032#32 && t.ctl.phase == .idle && t.reg.isr.word == 0x00000001#32 && t.trace == []) = true := by decide
/-- Row 3's RD_CR2. -/
theorem test_rdCr2 :
    nextIs (exec .rdCr2 ((phaseState .txNeed .write 1#8 false).setCr2 0x00010032#32)) (fun t =>
      t.reply == some 0x00010032#32) = true := by decide
/-- Row 5, and R25's row for TxSend. -/
theorem test_wrTxdr :
    nextIs (exec (.wrTxdr 0x0000000F#32) (phaseState .txNeed .write 1#8 false)) (fun t =>
      t.reg.txdata == 0x0F#8 && t.reg.isr.word == 0x00008000#32 && t.ctl.phase == .txSend && t.ctl.shift == 0x0F#8) = true := by decide
/-- Row 6. -/
theorem test_wrTxdr_high_bits :
    nextIs (exec (.wrTxdr 0x0000010F#32) (phaseState .txNeed .write 1#8 false)) (fun t =>
      t.refused == some .unsupportedTxdrBits && t.ctl.phase == .txNeed && t.reg.txdata == 0#8) = true := by decide
/-- Row 25. -/
theorem test_rdTxdr :
    nextIs (exec .rdTxdr (started.setTxdata 0x0F#8)) (fun t => t.reply == some 0x0000000F#32) = true := by decide
/-- Row 18. -/
theorem test_rdRxdr :
    nextIs (exec .rdRxdr (withByte (phaseState .rxRecv .read 1#8 true) 0x33#8)) (fun t =>
      t.reply == some 0x00000033#32 && !t.reg.isr.rxne) = true := by decide
/-- Row 17. -/
theorem test_rdRxdr_empty : nextIs (exec .rdRxdr started) (fun t => t.faults == [.rxdrEmpty]) = true := by decide

/-! ### Controller steps (95 L2.3) -/

/-- Row 1. -/
theorem test_address_ack :
    (controllerStep (withDraws (phaseState .addr .write 1#8 false) [.ack] [] [])).any (fun t =>
      t.trace == [.addrByte 0x19#7 .write, .sAck] && t.ctl.phase == .txNeed && t.reg.isr.word == 0x00008003#32
        && t.reg.cr2 == 0x00010032#32) = true := by decide
/-- Row 10. -/
theorem test_address_nack :
    (controllerStep (withDraws (phaseState .addr .write 1#8 false) [.nack] [] [])).any (fun t =>
      t.trace == [.addrByte 0x19#7 .write, .sNack, .stop] && t.ctl.phase == .idle && t.reg.isr.word == 0x00000031#32) = true := by
  decide
/-- Row 2. -/
theorem test_transmit_last :
    (controllerStep (withDraws ((phaseState .txSend .write 1#8 false).setTxdata 0x0F#8) [.ack] [] [])).any (fun t =>
      t.trace == [.mWrite 0x0F#8, .sAck] && t.ctl.phase == .endPhase && t.reg.isr.word == 0x00008001#32) = true := by decide
/-- Row 11. -/
theorem test_transmit_nack :
    (controllerStep (withDraws (phaseState .txSend .write 2#8 false) [.nack] [] [])).any (fun t =>
      t.ctl.phase == .idle && t.reg.isr.nackf && t.reg.isr.stopf && !t.reg.isr.busy && !t.reg.isr.txis) = true := by decide
/-- Row 5. -/
theorem test_receive_last :
    (controllerStep (withDraws (phaseState .rxRecv .read 1#8 true) [] [0x33#8] [])).any (fun t =>
      t.trace == [.sData 0x33#8, .mNack] && t.ctl.phase == .endPhase && t.reg.isr.word == 0x00008005#32) = true := by decide
/-- Row 8. -/
theorem test_receive_more :
    (controllerStep (withDraws (phaseState .rxRecv .read 6#8 true) [] [0x01#8] [])).any (fun t =>
      t.trace == [.sData 0x01#8, .mAck] && t.ctl.rem == 5#8 && t.ctl.phase == .rxRecv) = true := by decide
/-- Rows 3 and 6. -/
theorem test_end_steps :
    (controllerStep (phaseState .endPhase .write 0#8 false)).any (fun t =>
      t.ctl.phase == .tcHold && t.reg.isr.word == 0x00008041#32 && t.trace == []) = true ∧
    (controllerStep (withByte (phaseState .endPhase .read 0#8 true) 0x33#8)).any (fun t =>
      t.ctl.phase == .idle && t.reg.isr.word == 0x00000025#32 && t.trace == [.stop]) = true := by decide
/-- Rows 9 and 13. -/
theorem test_controller_holds :
    controllerStep (withByte (phaseState .rxRecv .read 5#8 true) 0x33#8) = none ∧
    controllerStep (phaseState .txNeed .write 1#8 false) = none := by decide

/-! ### Admission and the facade (95 L2.5) -/

/-- Row 15. -/
theorem test_admit_singleRead :
    nextIs (exec (.singleRead 0x19#7 0x0F#8) started) (fun t =>
      t.seq.status == .busy && t.seq.cmd == .singleRead && t.seq.a7 == 0x19#7 && t.seq.reg == 0x0F#8 && t.seq.pc == 0
        && t.reg == started.reg) = true := by decide
theorem test_admit_singleWrite :
    nextIs (exec (.singleWrite 0x19#7 0x20#8 0x57#8) started) (fun t =>
      t.seq.status == .busy && t.seq.cmd == .singleWrite && t.seq.val == 0x57#8) = true := by decide
/-- Rows 5 and 6: one byte short, and just enough. -/
theorem test_admit_burst_length :
    nextIs (exec (.burstRead 0x1E#7 0x68#8 6#8 0x20000000 5) started) (fun t =>
      t.seq.status == .rejected .bufferTooSmall && t.reg == started.reg && t.trace == []) = true ∧
    nextIs (exec (.burstRead 0x1E#7 0x68#8 6#8 0x20000000 6) started) (fun t => t.seq.status == .busy) = true := by decide
/-- Rows 7 and 8. -/
theorem test_admit_burst_zero :
    nextIs (exec (.burstRead 0x1E#7 0x68#8 0#8 0 0) started) (fun t => t.seq.status == .rejected .zeroLength) = true ∧
    nextIs (exec (.burstRead 0x1E#7 0x68#8 0#8 0 6) started) (fun t => t.seq.status == .rejected .zeroLength) = true := by decide
/-- Rows 1 and 9. -/
theorem test_admit_reserved :
    nextIs (runRequest (.command 0x03000F19#32 0 0) started) (fun t => t.seq.status == .rejected .reserved) = true ∧
    nextIs (runRequest (.command 0x03000F19#32 0 0) writing) (fun t => t.refused == some .commandOverlap) = true := by decide
/-- 95 L1-A1, and row 14. -/
theorem test_facadeRead :
    nextIs (exec (.facadeRead .magnetometer .whoAmI) started) (fun t => t.seq.a7 == 0x1E#7 && t.seq.reg == 0x4F#8) = true ∧
    nextIs (exec (.facadeRead .magnetometer .ctrl) started) (fun t =>
      t.refused == some .unboundRegister && t.seq == started.seq) = true := by decide
/-- 95 P2. -/
theorem test_facadeWrite :
    nextIs (exec (.facadeWrite .accelerometer .ctrl 0x57#8) started) (fun t =>
      t.seq.cmd == .singleWrite && t.seq.a7 == 0x19#7 && t.seq.reg == 0x20#8 && t.seq.val == 0x57#8) = true := by decide
/-- 95 P3, and row 11. -/
theorem test_facadeReadAll :
    nextIs (exec (.facadeReadAll .magnetometer .outXYZ 0x20000000 6) (bound started)) (fun t =>
      t.seq.cmd == .burstRead && t.seq.a7 == 0x1E#7 && t.seq.reg == 0x68#8 && t.seq.n == 6#8 && t.seq.buf == 0x20000000) = true ∧
    nextIs (exec (.facadeReadAll .magnetometer .outXYZ 0x20000000 4) (bound started)) (fun t =>
      t.seq.status == .rejected .bufferTooSmall) = true := by decide
/-- Rows 12 and 13. -/
theorem test_facadeReadAll_ends :
    nextIs (exec (.facadeReadAll .magnetometer (.other 0) 0 6) (bound started)) (fun t => t.refused == some .badRange) = true ∧
    nextIs (exec (.facadeReadAll .magnetometer (.other 1) 0 6) (bound started)) (fun t =>
      t.seq.status == .rejected .zeroLength) = true := by decide

/-! ### Single steps of a command -/

/-- R89: WRCR2 at index 0. -/
theorem test_micro_wrCr2 :
    (sequencerStep (running started .singleRead 0)).any (fun t => t.reg.cr2 == 0x00012032#32 && t.seq.pc == 1) = true := by decide
/-- R91, R55: a burst sends its register with bit 7 set. -/
theorem test_micro_wrTx :
    (sequencerStep (running (phaseState .txNeed .write 1#8 false) .burstRead 2)).any (fun t =>
      t.reg.txdata == 0xA0#8 && t.ctl.phase == .txSend && t.seq.pc == 3) = true := by decide
/-- R92, R97: the byte goes to its place and the loop goes back to its WAIT. -/
theorem test_micro_rdRx_buffer :
    (sequencerStep bursting).any (fun t => t.mem == [(0x100, 0x01#8)] && t.seq.pc == 5 && t.seq.i == 1#8 && !t.reg.isr.rxne) = true := by
  decide
theorem test_micro_rdRx_result :
    (sequencerStep reading).any (fun t => t.seq.result == some 0x33#8 && t.seq.pc == 7) = true := by decide
/-- R93. -/
theorem test_micro_done :
    sequencerStep (running (phaseState .endPhase .read 0#8 true) .singleRead 7) = none ∧
    (sequencerStep (running started .singleRead 7)).any (fun t => t.seq.status == .done) = true := by decide
/-- R121: a marked state stops, and a placed word runs first from reset. -/
theorem test_step_placed_word :
    nextIs (step (State.reset.withFetchWord 32 0x00000F19)) (fun t => t.seq.status == .busy && t.seq.reg == 0x0F#8) = true := by decide
/-- R28: a write keeps the list sorted and replaces. -/
theorem test_memory :
    Memory.write (Memory.write (Memory.write [] 5 1#8) 3 2#8) 5 4#8 = [(3, 2#8), (5, 4#8)] ∧ Memory.read [(3, 2#8)] 4 = none := by
  decide

end Sys2Proof.Tests
end

