-- ==== Sys2Proof/Tests/Witnesses.lean ====
section
/-! SUPPORT. For every obligation with hypotheses, states and operands that meet them, one for each clause. -/

open Sys2Proof Sys2Proof.Machine

namespace Sys2Proof.Tests

/-! ### Encoding -/

/-- Clause by clause: the lowest and the highest fields of each shape, and one word of each reserved kind. -/
theorem witness_DescriptorDecode :
    (0x0000FF7F#32 &&& 0xFFFF0080#32 = 0x00000000#32 ∧ decodeDescriptor 0x0000FF7F#32 0 0 = .instr (.singleRead 0x7F#7 0xFF#8)) ∧
    (0x01FF007F#32 &&& 0xFF000080#32 = 0x01000000#32 ∧
      decodeDescriptor 0x01FF007F#32 0 0 = .instr (.singleWrite 0x7F#7 0#8 0xFF#8)) ∧
    (0x02000000#32 &&& 0xFF000080#32 = 0x02000000#32 ∧ decodeDescriptor 0x02000000#32 7 9 = .instr (.burstRead 0#7 0#8 0#8 7 9)) ∧
    [0x00010000#32, 0x00000080#32, 0x03000000#32, 0x04000000#32, 0x80000000#32].all (fun w =>
      w &&& 0xFFFF0080#32 != 0x00000000#32 && w &&& 0xFF000080#32 != 0x01000000#32 && w &&& 0xFF000080#32 != 0x02000000#32 &&
      decide (decodeDescriptor w 0 0 = .reservedDescriptor)) = true :=
  ⟨by decide, by decide, by decide, by decide⟩

theorem witness_DecodeEncodeAgree :
    (Instr.wrCr2StartR 0x02FF24FE#32).wf = true ∧
    decode 0x40005400 (encode 0x40005400 (.wrCr2StartR 0x02FF24FE#32)) = .instr (.wrCr2StartR 0x02FF24FE#32) := by decide

/-- One request of each kind that decodes to an instruction. -/
theorem witness_EncodeDecodeAgree :
    decode 8 (.command 0x00000F19#32 3 4) = .instr (.singleRead 0x19#7 0x0F#8) ∧
    decode 8 (.command 0x0206681E#32 3 9) = .instr (.burstRead 0x1E#7 0x68#8 6#8 3 9) ∧
    decode 8 (.access ⟨0x20, 32, .read⟩) = .instr .rdIsr ∧
    decode 8 (.read .magnetometer .ctrl) = .instr (.facadeRead .magnetometer .ctrl) ∧
    decode 8 (.write .magnetometer .ctrl 1#8) = .instr (.facadeWrite .magnetometer .ctrl 1#8) ∧
    decode 8 (.readAll .magnetometer .outXYZ 1 2) = .instr (.facadeReadAll .magnetometer .outXYZ 1 2) := by decide

/-- The refused accesses at the edges: a wrong width at a good offset, the offsets beside the table's, an address below the base. -/
theorem witness_AccessAdmission :
    started.params.base = 0x40005400 ∧
    decode 0x40005400 (.access ⟨0x40005400 + 0x04, 32, .write 0x2400#32⟩) = .instr (.wrCr2StartR 0x2400#32) ∧
    decode 0x40005400 (.access ⟨0x40005400 + 0x24, 32, .read⟩) = .instr .rdRxdr ∧
    decode 0x40005400 (.access ⟨0x40005400 + 0x24, 32, .write 0#32⟩) = .readOnlyRegister ∧
    (∀ a ∈ [0x40005400, 0x40005403, 0x40005405, 0x4000542C, 0x400053FC, 0],
      decode 0x40005400 (.access ⟨a, 32, .read⟩) = .unsupportedAccess) ∧
    decode 0x40005400 (.access ⟨0x40005404, 16, .read⟩) = .unsupportedAccess := by decide

theorem witness_BusBytes : (0xE8#8 : Byte).getLsbD 7 = true ∧ subAddress .burstRead 0xE8#8 = 0xE8#8 := by decide

/-! ### The step -/

/-- A request that is presented at once, one that waited, and a placed word. -/
theorem witness_StepRunsDecodedInstruction :
    decode started.params.base (.command 0x00000F19#32 0 0) = .instr (.singleRead 0x19#7 0x0F#8) ∧
    (∀ wait : Bool, nextIs (step (started.setEnv { started.env with inbox := [⟨.command 0x00000F19#32 0 0, wait⟩] }))
      (fun t => t == started.setSeq (admitted started.seq .singleRead 0x19#7 0x0F#8)) = true) ∧
    started.seq.status ≠ .busy ∧ controllerStep started = none ∧
    decodeTableWord 32 0x00000F19 = some (.singleRead 0x19#7 0x0F#8) := by decide

/-- Every kind of step: an overlapping command is taken while one is in progress; a register-access line is not, and is once no
command is in progress; nor is a command that waits. -/
theorem witness_CallerWaits :
    (let s := writing.setEnv { writing.env with acks := [.ack], sched := [.controller], inbox := [⟨.command 0x00000F19#32 0 0, false⟩] }
     nextIs (step s) (fun t => t.env.inbox == [] && t.refused == some .commandOverlap) = true) ∧
    (∀ x ∈ [Submission.mk (.access ⟨0x40005424, 32, .read⟩) false, ⟨.command 0x00000F19#32 0 0, true⟩],
     let s := writing.setEnv { writing.env with acks := [.ack], sched := [.controller], inbox := [x] }
     s.seq.status = .busy ∧ nextIs (step s) (fun t => t.env.inbox == [x] && t.faults == [] && t.ctl.phase == .txNeed) = true) ∧
    (let s := started.setEnv { started.env with inbox := [⟨.access ⟨0x40005418, 32, .read⟩, false⟩] }
     nextIs (step s) (fun t => t.env.inbox == [] && t.reply == some 0x00000001#32) = true) := by decide

/-- Both agents have a step; either goes, as the schedule says. -/
theorem witness_ScheduleChoosesAgent :
    writing.faults = [] ∧ writing.refused = none ∧
    (let s := withDraws writing [.ack] [] [.controller]
     urgent s = false ∧ (sequencerStep s).isSome = true ∧ (controllerStep s).isSome = true ∧
     nextIs (step s) (fun t => t.ctl.phase == .txNeed && t.env.sched == []) = true) ∧
    (let s := withDraws writing [.ack] [] [.sequencer]
     nextIs (step s) (fun t => t.ctl.phase == .txSend && t.env.sched == []) = true) := by decide

theorem witness_MarkedStateStops :
    (started.raise .rxdrEmpty).faults = [.rxdrEmpty] ∧ step (started.raise .rxdrEmpty) = .fault .rxdrEmpty ∧
    (started.refuse .readOnly).refused = some .readOnly ∧ step (started.refuse .readOnly) = .refused .readOnly :=
  ⟨rfl, rfl, rfl, rfl⟩

/-- No agent has a step: DONE waits for a controller that waits for its byte to be read, and nothing is left to present. -/
theorem witness_HoldKeepsState :
    (let s := withByte (running (phaseState .rxRecv .read 1#8 true) .singleRead 7) 0#8
     s.faults = [] ∧ s.refused = none ∧ controllerStep s = none ∧ s.seq.status = .busy ∧ sequencerStep s = none ∧ urgent s = false ∧
     nextIs (step s) (fun t => t == s) = true) ∧
    started.env.inbox = [] ∧ nextIs (step started) (fun t => t == started) = true := by decide

/-! ### Register accesses -/

/-- Accepted from Idle and from TcHold, by both rows; a must-be-zero bit; an active phase; NBYTES = 0 in Idle, in TcHold and in an
active phase. -/
theorem witness_StartWrite :
    [0x00012032#32, 0x02FF24FE#32].all (fun v =>
      startBit v && v &&& 0xFD00DB01#32 == 0#32 && v.extractLsb' 16 8 != 0#8) = true ∧
    nextIs (exec (.wrCr2StartW 0x00012032#32) started) (fun t => t.trace == [.start] && t.reg.isr.busy) = true ∧
    nextIs (exec (.wrCr2StartR 0x02FF24FE#32) (phaseState .tcHold .write 0#8 false)) (fun t =>
      t.trace == [.repStart] && t.ctl.rem == 255#8 && t.ctl.sadd7 == 0x7F#7 && t.ctl.autoend) = true ∧
    0x00002033#32 &&& 0xFD00DB01#32 ≠ 0#32 ∧ 0x00002032#32 &&& 0xFD00DB01#32 = 0#32 ∧ (0x00002032#32).extractLsb' 16 8 = 0#8 ∧
    nextIs (exec (.wrCr2StartW 0x00002033#32) started) (fun t => t.refused == some .unsupportedCr2Field) = true ∧
    nextIs (exec (.wrCr2StartW 0x00012032#32) (phaseState .addr .write 1#8 false)) (fun t => t.faults == [.cr2WhileActive]) = true ∧
    nextIs (exec (.wrCr2StartW 0x00002032#32) (phaseState .addr .write 1#8 false)) (fun t =>
      t.refused == some .zeroNbytes && t.faults == []) = true ∧
    nextIs (exec (.wrCr2StartW 0x00002032#32) started) (fun t => t.refused == some .zeroNbytes) = true ∧
    nextIs (exec (.wrCr2StartR 0x00002432#32) (phaseState .tcHold .write 0#8 false)) (fun t => t.refused == some .zeroNbytes) = true := by
  decide

/-- Each row in the first and the last of the five phases; both START rows with NBYTES = 0 there. -/
theorem witness_ActiveWriteFaults :
    [phaseState .addr .write 1#8 false, phaseState .endPhase .read 0#8 true].all (fun s =>
      (s.ctl.phase == .addr || s.ctl.phase == .endPhase) &&
      [Instr.wrCr2StartW 0x00012032#32, .wrCr2StartR 0x02012432#32, .wrCr2NoStart 0x00000032#32].all (fun i =>
        nextIs (exec i s) fun t => t.faults == [.cr2WhileActive] && t.reg == s.reg) &&
      [Instr.wrCr2StartW 0x00002032#32, .wrCr2StartR 0x02002432#32].all (fun i =>
        nextIs (exec i s) fun t => t.refused == some .zeroNbytes && t.faults == [])) = true ∧
    (0x00012032#32).extractLsb' 16 8 = 1#8 ∧ (0x02012432#32).extractLsb' 16 8 = 1#8 ∧ (0x00002032#32).extractLsb' 16 8 = 0#8 ∧
    (0x02002432#32).extractLsb' 16 8 = 0#8 ∧ 0x00002032#32 &&& 0xFD00DB01#32 = 0#32 ∧ 0x02002432#32 &&& 0xFD00DB01#32 = 0#32 ∧
    0x00012032#32 &&& 0xFD00DB01#32 = 0#32 ∧ 0x02012432#32 &&& 0xFD00DB01#32 = 0#32 ∧ 0x00000032#32 &&& 0xFD00DB01#32 = 0#32 := by
  decide

theorem witness_NoStartWrite :
    startBit 0x00000032#32 = false ∧ startBit 0x00004032#32 = false ∧
    nextIs (exec (.wrCr2NoStart 0x00004032#32) started) (fun t => t.refused == some .unsupportedCr2Field) = true ∧
    nextIs (exec (.wrCr2NoStart 0x00000032#32) (phaseState .endPhase .read 0#8 true)) (fun t => t.faults == [.cr2WhileActive]) = true ∧
    nextIs (exec (.wrCr2NoStart 0x00000032#32) (phaseState .tcHold .write 0#8 false)) (fun t => t.reg.cr2 == 0x00000032#32) = true := by
  decide

theorem witness_TxdrWrite :
    (0x00000100#32).extractLsb' 8 24 ≠ 0#24 ∧ (0x000000FF#32).extractLsb' 8 24 = 0#24 ∧
    nextIs (exec (.wrTxdr 0x00000100#32) started) (fun t => t.refused == some .unsupportedTxdrBits) = true ∧
    nextIs (exec (.wrTxdr 0x000000FF#32) (phaseState .txSend .write 1#8 false)) (fun t => t.faults == [.txdrNotReady]) = true ∧
    nextIs (exec (.wrTxdr 0x000000FF#32) (phaseState .txNeed .write 1#8 false)) (fun t => t.reg.txdata == 0xFF#8) = true := by decide

theorem witness_RxdrRead :
    started.reg.isr.rxne = false ∧ (withByte started 0xFF#8).reg.isr.rxne = true ∧
    nextIs (exec .rdRxdr (withByte started 0xFF#8)) (fun t => t.reply == some 0x000000FF#32) = true := by decide

/-- Every one of the eight rows answers a next state. -/
theorem witness_RegisterRowFrame :
    [.wrCr2StartW 0x00012032#32, .wrCr2StartR 0x02012432#32, .wrCr2NoStart 0#32, .wrTxdr 0#32, .rdCr2, .rdIsr, .rdTxdr, .rdRxdr].all
      (fun i => nextIs (exec i started) fun t => t.seq == started.seq) = true := by decide

/-! ### Commands and facade -/

/-- The shortest and the longest burst, with no byte of the buffer to spare. -/
theorem witness_CommandsAdmitted :
    started.seq.status ≠ .busy ∧ (1#8 : Byte) ≠ 0#8 ∧ (1#8 : Byte).toNat ≤ 1 ∧ (255#8 : Byte).toNat ≤ 255 ∧
    nextIs (exec (.burstRead 0#7 0#8 1#8 0 1) started) (fun t => t.seq.status == .busy && t.seq.n == 1#8) = true ∧
    nextIs (exec (.burstRead 0#7 0#8 255#8 0 255) started) (fun t => t.seq.status == .busy && t.seq.n == 255#8) = true := by decide

theorem witness_CommandsRejected :
    started.seq.status ≠ .busy ∧ decode started.params.base (.command 0x04000F19#32 0 0) = .reservedDescriptor ∧
    (1#8 : Byte) ≠ 0#8 ∧ 0 < (1#8 : Byte).toNat ∧
    nextIs (exec (.burstRead 0#7 0#8 1#8 0 0) started) (fun t => t.seq.status == .rejected .bufferTooSmall) = true := by decide

/-- While a command is in progress, and after each way a command ends. -/
theorem witness_OverlapRefused :
    writing.seq.status = .busy ∧
    nextIs (runRequest (.command 0x00000F19#32 0 0) writing) (fun t => t == writing.refuse .commandOverlap) = true ∧
    decode started.params.base (.command 0x0206681E#32 0 6) = .instr (.burstRead 0x1E#7 0x68#8 6#8 0 6) ∧
    [Status.done, .rejected .reserved].all (fun st =>
      nextIs (runRequest (.command 0x0206681E#32 0 6) (started.setSeq { started.seq with status := st })) fun t =>
        t.seq.status == .busy && t.seq.n == 6#8) = true := by decide

/-- Bound names, and a range whose bounds meet. -/
theorem witness_FacadeExpands :
    slaveAddr (bound started).params .magnetometer = some 0x1E#7 ∧
    boundAddr (bound started).params .magnetometer .whoAmI = some 0x4F#8 ∧
    rangeEntry (bound started).params .magnetometer .outXYZ = some ⟨.magnetometer, .outXYZ, .outXL, .outZH⟩ ∧
    rangeEntry (bound started).params .magnetometer (.other 1) = some ⟨.magnetometer, .other 1, .outXL, .outXL⟩ ∧
    boundAddr (bound started).params .magnetometer .outXL = some 0x68#8 ∧
    boundAddr (bound started).params .magnetometer .outZH = some 0x6E#8 ∧ (0x68#8 : Byte).toNat ≤ (0x6E#8 : Byte).toNat := by decide

theorem witness_FacadeCompletes :
    (bound started).seq.status ≠ .busy ∧ slaveAddr (bound started).params .magnetometer = some 0x1E#7 ∧
    boundAddr (bound started).params .magnetometer .whoAmI = some 0x4F#8 ∧
    rangeSpan (bound started).params .magnetometer .outXYZ = some (0x68#8, 6#8) ∧ (6#8 : Byte) ≠ 0#8 ∧ (6#8 : Byte).toNat ≤ 6 ∧
    nextIs (exec (.facadeReadAll .magnetometer .outXYZ 0x100 6) (bound started)) (fun t =>
      t.seq.status == .busy && t.seq.n == 6#8) = true := by decide

/-- An unknown slave, an unbound register, a range without entry, one with an unbound end, one that ends below its start. -/
theorem witness_FacadeRefusals :
    slaveAddr (bound started).params (.other 0) = none ∧ boundAddr (bound started).params .magnetometer .ctrl = none ∧
    slaveAddr (bound started).params .magnetometer = some 0x1E#7 ∧
    rangeEntry (bound started).params .magnetometer (.other 7) = none ∧
    rangeEntry (bound started).params .magnetometer (.other 2) = some ⟨.magnetometer, .other 2, .outXL, .other 9⟩ ∧
    boundAddr (bound started).params .magnetometer (.other 9) = none ∧
    rangeEntry (bound started).params .magnetometer (.other 0) = some ⟨.magnetometer, .other 0, .outZH, .outXL⟩ ∧
    (0x68#8 : Byte).toNat < (0x6E#8 : Byte).toNat ∧
    [SlaveName.other 0].all (fun x => nextIs (exec (.facadeReadAll x .outXYZ 0 6) (bound started)) fun t =>
      t.refused == some .unboundRegister) = true ∧
    [RangeName.other 7, .other 2, .other 0].all (fun x => nextIs (exec (.facadeReadAll .magnetometer x 0 6) (bound started)) fun t =>
      t.refused == some .badRange) = true := by decide

/-- Every one of the six rows answers a next state, and one of them a refusal. -/
theorem witness_CommandRowFrame :
    [.singleRead 0x19#7 0x0F#8, .singleWrite 0x19#7 0x20#8 0x57#8, .burstRead 0x1E#7 0x68#8 6#8 0 6, .facadeRead .magnetometer .whoAmI,
      .facadeWrite .accelerometer .ctrl 1#8, .facadeReadAll .magnetometer .outXYZ 0 6].all
      (fun i => nextIs (exec i started) fun t => t.reg == started.reg) = true ∧
    nextIs (exec (.facadeReadAll .magnetometer .outXYZ 0 6) started) (fun t => t.refused != started.refused) = true := by decide

/-! ### Controller -/

theorem witness_AddressStep :
    (phaseState .addr .write 1#8 false).ctl.phase = .addr ∧ (phaseState .addr .read 1#8 true).ctl.rw = .read ∧
    (withDraws (phaseState .addr .read 1#8 true) [.ack] [] []).env.acks = [.ack] ∧
    (controllerStep (withDraws (phaseState .addr .read 1#8 true) [.ack] [] [])).any (fun t => t.ctl.phase == .rxRecv) = true := by decide

/-- The last byte, and the longest phase's first. -/
theorem witness_TransmitStep :
    (phaseState .txSend .write 255#8 false).ctl.phase = .txSend ∧ 1 < (phaseState .txSend .write 2#8 false).ctl.rem.toNat ∧
    (phaseState .txSend .write 1#8 false).ctl.rem = 1#8 ∧
    (controllerStep (withDraws (phaseState .txSend .write 2#8 false) [.ack] [] [])).any (fun t =>
      t.ctl.phase == .txNeed && t.ctl.rem == 1#8) = true ∧
    (controllerStep (withDraws (phaseState .txSend .write 255#8 false) [.ack] [] [])).any (fun t => t.ctl.rem == 254#8) = true := by
  decide

theorem witness_ReceiveStep :
    (let s := withDraws (phaseState .rxRecv .read 2#8 true) [] [0x55#8] []
     s.ctl.phase = .rxRecv ∧ s.reg.isr.rxne = false ∧ s.env.bytes = [0x55#8] ∧ 1 < s.ctl.rem.toNat ∧
     (controllerStep s).any (fun t => t.ctl.rem == 1#8 && t.reg.rxdata == 0x55#8) = true) ∧
    (phaseState .rxRecv .read 1#8 true).ctl.rem = 1#8 := by decide

theorem witness_EndStep :
    (phaseState .endPhase .read 0#8 true).ctl.phase = .endPhase ∧ (phaseState .endPhase .read 0#8 true).ctl.autoend = true ∧
    (phaseState .endPhase .write 0#8 false).ctl.autoend = false := by decide

theorem witness_ControllerFrame :
    (controllerStep (withDraws writing [.nack] [] [])).any (fun t => t.seq == writing.seq && t.trace != writing.trace) = true := by decide

/-! ### Sequencer -/

theorem witness_ShapePrograms :
    writing.seq.cmd = .singleWrite ∧ reading.seq.cmd = .singleRead ∧ bursting.seq.cmd = .burstRead := by decide

/-- A poll that finds its flag 0 and one that finds it 1. -/
theorem witness_WaitPolls :
    writing.seq.status = .busy ∧ currentMicro writing = some (.wait .txis) ∧ writing.reg.isr.txis = false ∧
    sequencerStep writing = some writing ∧
    (let s := running (phaseState .txNeed .write 1#8 false) .singleRead 1
     currentMicro s = some (.wait .txis) ∧ s.reg.isr.txis = true ∧ (sequencerStep s).any (fun t => t.seq.pc == 2) = true) := by decide

/-- An accepted and a faulted write of each kind, the burst's second write among them. -/
theorem witness_WritingMicroSteps :
    (let s := running started .singleRead 0
     s.seq.status = .busy ∧ s.faults = [] ∧ s.refused = none ∧ currentMicro s = some (.wrCr2 0x00012032#32) ∧
     nextIs (exec (.wrCr2StartW 0x00012032#32) s) (fun t => t.faults == [] && t.refused == none) = true) ∧
    (let s := running (phaseState .addr .write 1#8 false) .singleRead 0
     currentMicro s = some (.wrCr2 0x00012032#32) ∧
     nextIs (exec (.wrCr2StartW 0x00012032#32) s) (fun t => t.faults != s.faults) = true) ∧
    (let s := running (phaseState .tcHold .write 0#8 false) .burstRead 4
     currentMicro s = some (.wrCr2Burst 0x02022432#32) ∧
     nextIs (exec (.wrCr2StartR 0x02022432#32) s) (fun t => t.faults == []) = true ∧
     (sequencerStep s).any (fun t => t.seq.i == 0#8 && t.seq.pc == 5 && t.reg.cr2 == 0x02022432#32) = true) ∧
    (let s := running (phaseState .addr .write 1#8 false) .burstRead 4
     currentMicro s = some (.wrCr2Burst 0x02022432#32) ∧
     nextIs (exec (.wrCr2StartR 0x02022432#32) s) (fun t => t.faults == [.cr2WhileActive]) = true ∧
     (sequencerStep s).any (fun t => t.seq.pc == 4 && t.faults == [.cr2WhileActive]) = true) ∧
    (let s := running (phaseState .txNeed .write 2#8 false) .singleWrite 4
     currentMicro s = some (.wrTx 0x57#8) ∧ nextIs (exec (.wrTxdr 0x57#32) s) (fun t => t.faults == []) = true) ∧
    (let s := running started .singleWrite 4
     currentMicro s = some (.wrTx 0x57#8) ∧ nextIs (exec (.wrTxdr 0x57#32) s) (fun t => t.faults != s.faults) = true) := by decide

/-- Both destinations, and an empty RXDR. -/
theorem witness_ReadingMicroSteps :
    reading.seq.status = .busy ∧ currentMicro reading = some (.rdRx .result) ∧ reading.reg.isr.rxne = true ∧
    bursting.seq.status = .busy ∧ currentMicro bursting = some (.rdRx .buffer) ∧ bursting.reg.isr.rxne = true ∧
    (let s := running started .singleRead 6
     currentMicro s = some (.rdRx .result) ∧ s.reg.isr.rxne = false ∧
     (sequencerStep s).any (fun t => t.faults == [.rxdrEmpty]) = true) := by decide

theorem witness_DoneHoldsUntilQuiescent :
    currentMicro (running started .singleRead 7) = some .done ∧ (running started .singleRead 7).ctl.phase = .idle ∧
    currentMicro (running (phaseState .tcHold .write 0#8 false) .singleWrite 6) = some .done ∧
    (let s := running (phaseState .endPhase .read 0#8 true) .singleRead 7
     s.seq.status = .busy ∧ currentMicro s = some .done ∧ s.ctl.phase ≠ .idle ∧ s.ctl.phase ≠ .tcHold) := by decide

theorem witness_SequencerFrame :
    (sequencerStep bursting).any (fun t => t.mem != bursting.mem) = true ∧ currentMicro bursting = some (.rdRx .buffer) := by decide

/-! ### The whole machine -/

/-- The block's invariant from its parts, each of which `decide` settles on a concrete state. -/
theorem inv_of_parts (s : State)
    (h : (s.reg.isr.busy = false ↔ s.ctl.phase = .idle) ∧ (s.reg.isr.tc = true ↔ s.ctl.phase = .tcHold) ∧
      (s.reg.isr.txis = true ↔ s.ctl.phase = .txNeed) ∧ (s.reg.isr.txe = false ↔ s.ctl.phase = .txSend) ∧
      (startBit s.reg.cr2 = true ↔ s.ctl.phase = .addr) ∧
      (s.ctl.phase = .addr ∨ s.ctl.phase = .txNeed ∨ s.ctl.phase = .txSend ∨ s.ctl.phase = .rxRecv → s.ctl.rem ≠ 0#8) ∧
      (s.ctl.phase = .txSend → s.ctl.shift = s.reg.txdata) ∧ s.reg.cr2 &&& cr2Mbz = 0#32 ∧ Memory.wf s.mem ∧ s.faults.Nodup) :
    s.Inv :=
  ⟨⟨h.1, h.2.1, h.2.2.1, h.2.2.2.1, h.2.2.2.2.1, h.2.2.2.2.2.1⟩, h.2.2.2.2.2.2.1, h.2.2.2.2.2.2.2.1,
    h.2.2.2.2.2.2.2.2.1, h.2.2.2.2.2.2.2.2.2⟩

theorem empty_inbox {s : State} (h : s.env.inbox = []) : s.onlyCommands := fun x hx => by simp [h] at hx

theorem writing_inv : writing.Inv := inv_of_parts _ (by decide)
theorem reading_inv : reading.Inv := inv_of_parts _ (by decide)
theorem bursting_inv : bursting.Inv := inv_of_parts _ (by decide)
theorem stalled_inv : stalled.Inv := inv_of_parts _ (by decide)

theorem stalled_nacked : stalled.nacked := ⟨rfl, rfl, rfl, [.start, .addrByte 0x19#7 .write], rfl⟩

theorem writing_engine : writing.EngineInv :=
  ⟨writing_inv, empty_inbox rfl, rfl, ⟨⟨Or.inl ⟨rfl, rfl, rfl, rfl⟩, rfl⟩, fun _ => ⟨rfl, rfl⟩⟩⟩

theorem reading_engine : reading.EngineInv :=
  ⟨reading_inv, empty_inbox rfl, rfl, ⟨⟨⟨rfl, Or.inr ⟨Or.inl ⟨rfl, rfl, rfl⟩, rfl⟩⟩, rfl⟩, by decide⟩⟩

theorem bursting_engine : bursting.EngineInv :=
  ⟨bursting_inv, empty_inbox rfl, rfl, ⟨⟨⟨rfl, Or.inl ⟨rfl, ⟨rfl, rfl⟩, rfl⟩⟩, by decide⟩, by decide⟩⟩

theorem stalled_engine : stalled.EngineInv :=
  ⟨stalled_inv, empty_inbox rfl, rfl, ⟨⟨Or.inr stalled_nacked, rfl⟩, fun _ => ⟨rfl, rfl⟩⟩⟩

theorem reset_engine : started.EngineInv :=
  ⟨inv_of_parts _ (by decide), empty_inbox rfl, rfl, ⟨rfl, rfl⟩⟩

theorem witness_StepKeepsInv :
    (withDraws writing [.ack] [] [.controller]).Inv ∧
    nextIs (step (withDraws writing [.ack] [] [.controller])) (fun t => t.ctl.phase == .txNeed) = true :=
  ⟨inv_of_parts _ (by decide), by decide⟩

theorem started_upstream : started.lpUpstream := ⟨rfl, by decide, by decide, by decide⟩

/-- The upstream premises met, by the state after reset too; and each of the four broken by itself. -/
theorem witness_StepKeepsLaunch :
    writing.Inv ∧ writing.lpUpstream ∧ nextIs (step (withDraws writing [.ack] [] [.controller])) (fun t => t != writing) = true ∧
    started.lpUpstream ∧ ¬ (State.resetWith { testParams with clocked := false } testUpstream).lpClocked ∧
    ¬ (State.resetWith testParams { testUpstream with cr1 := 0#32 }).lpEnabled ∧
    ¬ (State.resetWith testParams { testUpstream with oar2 := 0x8000#32 }).lpMaster7 ∧
    ¬ (State.resetWith testParams { testUpstream with cr1 := 0x81#32 }).lpNoIrq :=
  ⟨writing_inv, ⟨rfl, by decide, by decide, by decide⟩, by decide, started_upstream, by decide, by decide, by decide, by decide⟩

theorem witness_StepKeepsBusGrammar :
    writing.Inv ∧ writing.onGrammar ∧ reading.onGrammar ∧
    nextIs (step (withDraws writing [.nack] [] [.controller])) (fun t => t.ctl.phase == .idle) = true :=
  ⟨writing_inv, ⟨.writing 0, rfl, rfl, 0, rfl, rfl⟩, ⟨.last 1, rfl, by decide, Or.inr ⟨rfl, rfl⟩⟩, by decide⟩

theorem witness_StepKeepsEngineInv :
    reading.EngineInv ∧ nextIs (step (withDraws reading [] [] [.sequencer])) (fun t => t.seq.pc == 7) = true :=
  ⟨reading_engine, by decide⟩

theorem witness_StepKeepsBurstData :
    bursting.EngineInv ∧ bursting.burstData ∧ nextIs (step bursting) (fun t => t.mem == [(0x100, 0x01#8)]) = true :=
  ⟨bursting_engine, fun _ => ⟨rfl, fun j hj => absurd hj (Nat.not_lt_zero j), fun _ => rfl, by decide⟩, by decide⟩

/-- A poll beside a transmit step, and RDRX beside an end step. -/
theorem witness_AgentsCommute :
    writing.EngineInv ∧ sequencerStep writing = some writing ∧ (controllerStep (withDraws writing [.ack] [] [])).isSome = true ∧
    reading.EngineInv ∧ (sequencerStep reading).any (fun t => t != reading) = true ∧ (controllerStep reading).isSome = true :=
  ⟨writing_engine, by decide, by decide, reading_engine, by decide, by decide⟩

/-- A controller step that draws NACK, the step of the machine it is, and a step of a state that had stalled. -/
theorem witness_NackStalls :
    writing.EngineInv ∧ writing.seq.status = .busy ∧ writing.ctl.phase ≠ .endPhase ∧
    (controllerStep (withDraws writing [.nack] [] [])).any (fun t => t.ctl.phase == .idle) = true ∧
    nextIs (step (withDraws writing [.nack] [] [.controller])) (fun t =>
      t.trace == writing.trace ++ [.mWrite 0x20#8, .sNack, .stop] && t.seq.pc == 3 && t.reg.isr.nackf) = true ∧
    stalled.EngineInv ∧ stalled.stalledAt .txis ∧ nextIs (step stalled) (fun t => t == stalled) = true :=
  ⟨writing_engine, rfl, by decide, by decide, by decide, stalled_engine, ⟨rfl, rfl, rfl, stalled_nacked⟩, by decide⟩

theorem witness_StallIsForever :
    stalled.faults = [] ∧ stalled.refused = none ∧ urgent stalled = false ∧ stalled.stalledAt .txis ∧
    nextIs (step stalled) (fun t => t == stalled) = true :=
  ⟨rfl, rfl, rfl, ⟨rfl, rfl, rfl, stalled_nacked⟩, by decide⟩

/-- A command that has stalled, one whose controller goes on, and one whose sequencer goes on. -/
theorem witness_CommandMakesProgress :
    stalled.EngineInv ∧ stalled.seq.status = .busy ∧ writing.EngineInv ∧ writing.seq.status = .busy ∧ bursting.EngineInv ∧
    bursting.seq.status = .busy ∧ (sequencerStep bursting).any (fun t => decide (t.workLeft < bursting.workLeft)) = true :=
  ⟨stalled_engine, rfl, writing_engine, rfl, bursting_engine, rfl, by decide⟩

/-- The states a start runs through; a state that stops is not left. -/
def runFrom (s : State) : Nat → State
  | 0 => s
  | k + 1 =>
    match step (runFrom s k) with
    | .next t => t
    | .fault _ => runFrom s k
    | .refused _ => runFrom s k

theorem runFrom_step {s : State} {k : Nat} (h : nextIs (step (runFrom s k)) (fun _ => true) = true) :
    step (runFrom s k) = .next (runFrom s (k + 1)) := by
  simp only [runFrom]
  cases hs : step (runFrom s k) <;> simp [hs, nextIs] at h ⊢

theorem runFrom_rest {s : State} {n : Nat} (h : step (runFrom s n) = .next (runFrom s n)) (d : Nat) :
    runFrom s (n + d) = runFrom s n := by
  induction d with
  | zero => rfl
  | succ d ih =>
    show (match step (runFrom s (n + d)) with | .next t => t | .fault _ => _ | .refused _ => _) = _
    rw [ih, h]

/-- A SINGLE_READ with its RDRX and the controller's end step to go; then DONE, and the machine waits. -/
def ending : State := withDraws reading [] [] [.sequencer]

theorem ending_rests : step (runFrom ending 3) = .next (runFrom ending 3) := by
  have h : nextIs (step (runFrom ending 3)) (fun t => t == runFrom ending 3) = true := by decide
  revert h
  cases step (runFrom ending 3) <;> simp [nextIs]

theorem ending_after (k : Nat) : (runFrom ending k = runFrom ending 3 ∧ 3 ≤ k) ∨ k = 0 ∨ k = 1 ∨ k = 2 := by
  by_cases h : 3 ≤ k
  · exact .inl ⟨by simpa [Nat.add_sub_cancel' h] using runFrom_rest ending_rests (k - 3), h⟩
  · omega

/-- A weakly fair run: from the third state on no agent has a step. -/
theorem witness_FairRunEnds :
    isRun (runFrom ending) ∧ weaklyFair (runFrom ending) ∧ allAcknowledged (runFrom ending) ∧ (runFrom ending 0).lpUpstream ∧
    (runFrom ending 0).EngineInv ∧ (runFrom ending 0).seq.status = .busy ∧ (∀ f, ¬ (runFrom ending 0).stalledAt f) ∧ (runFrom ending 3).seq.status = .done := by
  refine ⟨fun k => runFrom_step ?_, fun a k h => ?_, fun k => ?_, ⟨rfl, by decide, by decide, by decide⟩,
    ⟨inv_of_parts _ (by decide), empty_inbox rfl, rfl,
    reading_engine.coupling⟩, rfl, fun f h => ?_, by decide⟩
  · rcases ending_after k with ⟨h, _⟩ | rfl | rfl | rfl
    · rw [h]; decide
    all_goals decide
  · have h := h (3 + k) (by omega)
    rw [runFrom_rest ending_rests] at h
    cases a
    · exact absurd h (by simp only [hasStep]; decide)
    · exact absurd h (by simp only [hasStep]; decide)
  · rcases ending_after k with ⟨h, _⟩ | rfl | rfl | rfl
    · rw [h]; decide
    all_goals decide
  · exact absurd h.2.1 (by cases f <;> decide)

/-- A program of two commands that are rejected: both ends are observed, in order. -/
theorem witness_ProgramObserved :
    (let s := started.loadProgram [.command 0x03000F19#32 0 0, .command 0x0200681E#32 0 0]
     (runEnds 2 s).map (fun u => u.2) = some [⟨.rejected .reserved, none⟩, ⟨.rejected .zeroLength, none⟩] ∧
     (runEnds 2 s).any (fun u => decide (u.1.env.inbox = [] ∧ u.1.seq.status = .rejected .zeroLength ∧ u.1.unmarked)) = true) ∧
    (let s := running started .singleRead 7
     (runEnds 1 s).map (fun u => u.2) = some [⟨.done, s.seq.result⟩]) := by decide

/-- Below the register block every byte is the caller's in `testParams`. -/
theorem lpBuffer_below {buf k : Nat} (h : buf + k ≤ 0x40005400) : lpBuffer testParams buf k :=
  fun a _ h2 =>
    have h2 : a < 0x40005400 := Nat.lt_of_lt_of_le h2 h
    ⟨⟨⟨0, 0x40005400⟩, by decide, Nat.zero_le a, (Nat.zero_add 0x40005400).symm ▸ h2⟩,
      fun h3 => absurd (Nat.lt_of_le_of_lt h3.1 h2) (Nat.lt_irrefl _)⟩

/-- Buffers that end at the register block's first byte and that begin after its last one; one that reaches into it, and one outside
the caller's memory. -/
theorem witness_lpBuffer :
    lpBuffer testParams (0x40005400 - 6) 6 ∧ lpBuffer testParams (0x40005400 + 0x2C) 255 ∧ ¬ lpBuffer testParams (0x40005400 - 6) 7 ∧
    ¬ lpBuffer testParams 0x50000000 1 := by
  refine ⟨lpBuffer_below (by omega), fun a h1 h2 => ⟨⟨⟨0x4000542C, 0x1000⟩, by decide, h1, ?_⟩, fun h3 => ?_⟩,
    fun h => (h 0x40005400 (by omega) (by omega)).2 ⟨Nat.le_refl _, by decide⟩, fun h => ?_⟩
  · show a < 0x4000542C + 0x1000; omega
  · have h3 : a < 0x40005400 + 0x2C := h3.2
    omega
  · obtain ⟨r, hr, h1, h2⟩ := (h 0x50000000 (by omega) (by omega)).1
    simp only [testParams, List.mem_cons, List.not_mem_nil, or_false] at hr
    rcases hr with rfl | rfl
    · exact absurd h2 (by decide)
    · exact absurd h2 (by decide)

theorem witness_StepKeepsRegisterBlock :
    bursting.EngineInv ∧ bursting.lpBuffers ∧ bursting.blockUntouched ∧ nextIs (step bursting) (fun t => t.mem != bursting.mem) = true := by
  refine ⟨bursting_engine, ⟨fun x hx => ?_, fun _ _ => ⟨by decide, lpBuffer_below (by decide)⟩⟩, fun _ _ => rfl, by decide⟩
  simp [show bursting.env.inbox = [] from rfl] at hx

theorem witness_SingleWriteRuns :
    let s := withDraws started [.ack, .ack, .ack] [] (List.replicate 4 .controller)
    s.lpUpstream ∧ s.EngineInv ∧ (∀ x ∈ s.env.inbox, x.wait = true) ∧ s.refused = none ∧ s.seq.status ≠ .busy ∧
      s.env.acks = List.replicate 3 .ack ++ [] ∧ s.env.sched = List.replicate 4 .controller ++ [] :=
  ⟨started_upstream, ⟨inv_of_parts _ (by decide), empty_inbox rfl, rfl, ⟨rfl, rfl⟩⟩, by decide⟩

theorem witness_SingleReadRuns :
    let s := withDraws started [.ack, .ack, .ack] [0x33#8] (List.replicate 6 .controller)
    s.lpUpstream ∧ s.EngineInv ∧ (∀ x ∈ s.env.inbox, x.wait = true) ∧ s.refused = none ∧ s.seq.status ≠ .busy ∧
      s.env.acks = List.replicate 3 .ack ++ [] ∧ s.env.bytes = [0x33#8] ∧ s.env.sched = List.replicate 6 .controller ++ [] :=
  ⟨started_upstream, ⟨inv_of_parts _ (by decide), empty_inbox rfl, rfl, ⟨rfl, rfl⟩⟩, by decide⟩

/-- Reset, with a slave that acknowledges and returns `bs`. -/
def answering (bs : List Byte) : State :=
  withDraws started [.ack, .ack, .ack] bs (List.replicate (bs.length + 5) .controller)

theorem answering_engine (bs : List Byte) : (answering bs).EngineInv :=
  let ⟨⟨busy, tc, txis, txe, start, rem⟩, shift, cr2, mem, faults⟩ := reset_engine.inv
  ⟨⟨⟨busy, tc, txis, txe, start, rem⟩, shift, cr2, mem, faults⟩, empty_inbox rfl, rfl, ⟨rfl, rfl⟩⟩

/-- Every burst of one byte or more whose buffer ends before the register block: among them the shortest, and the longest that ends
at its first byte. -/
theorem witness_BurstReadRuns :
    (∀ (bs : List Byte) (last : Byte) (n : Byte) (buf : Nat), (bs ++ [last]).length = n.toNat → buf + n.toNat ≤ 0x40005400 →
      let s := answering (bs ++ [last])
      s.lpUpstream ∧ s.EngineInv ∧ (∀ x ∈ s.env.inbox, x.wait = true) ∧ s.refused = none ∧ s.seq.status ≠ .busy ∧
        n.toNat ≤ n.toNat ∧ lpBuffer s.params buf n.toNat ∧ s.env.acks = List.replicate 3 .ack ++ [] ∧
        s.env.bytes = bs ++ last :: [] ∧
        s.env.sched = List.replicate (n.toNat + 5) .controller ++ []) ∧
    (([] : List Byte) ++ [0x01#8]).length = (1#8 : Byte).toNat ∧
    (List.replicate 254 0x02#8 ++ [0x01#8] : List Byte).length = (255#8 : Byte).toNat ∧
    (0x40005400 - 255) + (255#8 : Byte).toNat ≤ 0x40005400 := by
  refine ⟨fun bs last n buf hn hb => ⟨started_upstream, answering_engine _, fun x hx => absurd hx List.not_mem_nil, rfl, nofun,
    Nat.le_refl _, lpBuffer_below hb, rfl, rfl, ?_⟩, rfl, by rw [List.length_append, List.length_replicate]; rfl, by decide⟩
  rw [← hn, List.append_nil]; rfl

theorem witness_StepKeepsHistory :
    stalled.reg.isr.nackf = true ∧ stalled.reg.isr.stopf = true ∧
    nextIs (step stalled) (fun t => t.reg.isr.nackf && t.reg.isr.stopf) = true := by decide

theorem witness_MarksOnlyGrow :
    nextIs (exec .rdRxdr (started.raise .txdrNotReady)) (fun t => t.faults == [.txdrNotReady, .rxdrEmpty]) = true ∧
    nextIs (exec (.wrTxdr 0x100#32) (started.refuse .readOnly)) (fun t => t.refused == some .readOnly) = true ∧
    (sequencerStep writing).isSome = true := by decide

theorem witness_DoneIsQuiescent :
    (let s := running started .singleRead 7
     s.seq.status ≠ .done ∧ nextIs (step s) (fun t => t.seq.status == .done) = true) := by decide

theorem witness_ResultOnlyWhenDone :
    (let s := started.setSeq { started.seq with status := .done, cmd := .singleRead, result := some 0x33#8 }
     s.seq.status = .done ∧ s.seq.cmd = .singleRead ∧ s.callerResult = some 0x33#8) ∧
    started.seq.status ≠ .done ∧ started.callerResult = none := by decide

end Sys2Proof.Tests
end

-- Family 00_scope.md, part one: the caller's list.
section
/-! SUPPORT. What each agent's step leaves of the caller's list (`env.inbox`): an agent's step never takes a request, and a request
that runs leaves the list it was given. -/

namespace Sys2Proof.Machine

theorem Presented.env_eq {s t : State} (h : Presented s t) : t.env = s.env := by
  cases h <;> rfl

theorem Executed.env_eq {wf : Prop} {s t : State} (h : Executed wf s t) : t.env = s.env := by
  cases h with
  | presented h => exact h.env_eq
  | started v => exact State.beginPhase_env s v
  | _ => rfl

theorem Stepped.env_eq {s t : State} (h : Stepped s t) : t.env = s.env := by
  cases h with
  | started v => exact State.beginPhase_env s v
  | startedBurst v => exact State.beginPhase_env s v
  | _ => rfl

/-- The environment is drawn from by the controller alone (R9). -/
theorem sequencerStep_env_eq {s t : State} (h : sequencerStep s = some t) : t.env = s.env :=
  (sequencerStep_stepped h).2.env_eq

theorem runRequest_env_eq {r : Request} {s t : State} (h : runRequest r s = .next t) : t.env = s.env :=
  (runRequest_next h).env_eq

theorem addressStep_inbox (s : State) : (addressStep s).env.inbox = s.env.inbox := by
  obtain ⟨e, he, h | ⟨_, h⟩ | ⟨_, h⟩⟩ := addressStep_cases s <;> rw [h] <;> exact he

theorem transmitStep_inbox (s : State) : (transmitStep s).env.inbox = s.env.inbox := by
  obtain ⟨e, he, h | ⟨_, h⟩ | ⟨_, h⟩⟩ := transmitStep_cases s <;> rw [h] <;> exact he

theorem receiveStep_inbox (s : State) : (receiveStep s).env.inbox = s.env.inbox := by
  obtain ⟨e, b, he, ⟨_, h⟩ | ⟨_, h⟩⟩ := receiveStep_cases s <;> rw [h] <;> exact he

theorem endStep_inbox (s : State) : (endStep s).env.inbox = s.env.inbox := by
  unfold endStep
  split <;> rfl

/-- The controller's draws leave the caller's list (R9). -/
theorem controllerStep_inbox {s t : State} (h : controllerStep s = some t) : t.env.inbox = s.env.inbox := by
  rcases controllerStep_cases h with ⟨_, rfl⟩ | ⟨_, rfl⟩ | ⟨_, _, rfl⟩ | ⟨_, rfl⟩
  · exact addressStep_inbox s
  · exact transmitStep_inbox s
  · exact receiveStep_inbox s
  · exact endStep_inbox s

theorem isAccess_iff (r : Request) : isAccess r = true ↔ ∃ a, r = .access a := by
  cases r <;> simp [isAccess]

/-- A move leaves the caller's list, or takes the request at its head: while a command is in progress, one that does not wait and is
no register-access line. -/
theorem Moves.inbox_cases {s t : State} {e : Env} (he : e.inbox = s.env.inbox) (h : Moves s t e) :
    t.env.inbox = s.env.inbox ∨
    ∃ x, s.env.inbox = x :: t.env.inbox ∧
      (x.wait = false ∧ isAccess x.request = false ∨ s.seq.status ≠ .busy) := by
  rcases h with rfl | ⟨_, hs⟩ | hc | ⟨x, rest, hx, hw, hrun⟩
  · exact .inl he
  · exact .inl ((congrArg Env.inbox (sequencerStep_env_eq hs)).trans he)
  · exact .inl ((controllerStep_inbox hc).trans he)
  · have hrest : t.env.inbox = rest := congrArg Env.inbox (runRequest_env_eq hrun)
    exact .inr ⟨x, hrest ▸ hx, hw⟩

end Sys2Proof.Machine
end

-- Family 00_scope.md, part two: who moves.
section
/-! SUPPORT. Which agents have a step does not depend on the environment, and what `step` is once it is known which have one (R5,
R10, R76). -/

namespace Sys2Proof.Machine

theorem microStep_isSome_setEnv (m : Micro) (s : State) (e : Env) :
    (microStep m (s.setEnv e)).isSome = (microStep m s).isSome := by
  cases m with
  | rdRx d => cases d <;> rfl
  | done =>
    have hq : (s.setEnv e).quiescent = s.quiescent := rfl
    simp only [microStep, hq]
    split <;> rfl
  | _ => rfl

/-- Whether the sequencer has a step does not depend on the environment. -/
theorem sequencerStep_isSome_setEnv (s : State) (e : Env) :
    (sequencerStep (s.setEnv e)).isSome = (sequencerStep s).isSome := by
  have hm : currentMicro (s.setEnv e) = currentMicro s := rfl
  simp only [sequencerStep, State.setEnv_seq, hm]
  split
  · split
    · exact microStep_isSome_setEnv _ s e
    · rfl
  all_goals rfl

/-- Nor does whether the controller has one: what it draws decides the step's result only. -/
theorem controllerStep_isSome_setEnv (s : State) (e : Env) :
    (controllerStep (s.setEnv e)).isSome = (controllerStep s).isSome := by
  simp only [controllerStep, State.setEnv_ctl, State.setEnv_reg]
  cases s.ctl.phase with
  | rxRecv => by_cases hx : s.reg.isr.rxne = true <;> simp [hx]
  | _ => rfl

theorem engineMove_of_sequencerStep {s t : State} (hu : urgent s = false) (h : sequencerStep s = some t) :
    engineMove s = .next t := by
  simp [engineMove, hu, (sequencerStep_cases h).1, h]

theorem controllerMove_of_controllerStep {s t : State} (h : controllerStep s = some t) : controllerMove s = .next t := by
  simp [controllerMove, h]

/-- When both agents have a step and nothing is urgent, the schedule chooses. -/
theorem nextMover_of_both {s a b : State} (hu : urgent s = false) (ha : sequencerStep s = some a)
    (hb : controllerStep s = some b) : nextMover s = (some s.pickAgent.1, s.pickAgent.2) := by
  have he : engineEnabled s = true := by simp [engineEnabled, (sequencerStep_cases ha).1, ha]
  simp [nextMover, hu, he, hb]

theorem pickAgent_of_sched {s : State} {a : Agent} {rest : List Agent} (h : s.env.sched = a :: rest) :
    s.pickAgent = (a, s.setEnv { s.env with sched := rest }) := by
  simp [State.pickAgent, h]

theorem step_of_sequencer_scheduled {s a b : State} {rest : List Agent} (hf : s.faults = []) (hr : s.refused = none)
    (hu : urgent s = false) (ha : sequencerStep s = some a) (hb : controllerStep s = some b)
    (hs : s.env.sched = .sequencer :: rest) : step s = engineMove (s.setEnv { s.env with sched := rest }) := by
  rw [step_of_unmarked hf hr, move, nextMover_of_both hu ha hb, pickAgent_of_sched hs]

theorem step_of_controller_scheduled {s a b : State} {rest : List Agent} (hf : s.faults = []) (hr : s.refused = none)
    (hu : urgent s = false) (ha : sequencerStep s = some a) (hb : controllerStep s = some b)
    (hs : s.env.sched = .controller :: rest) : step s = controllerMove (s.setEnv { s.env with sched := rest }) := by
  rw [step_of_unmarked hf hr, move, nextMover_of_both hu ha hb, pickAgent_of_sched hs]

theorem step_of_no_mover {s : State} (hf : s.faults = []) (hr : s.refused = none) (he : engineEnabled s = false)
    (hc : controllerStep s = none) : step s = .next s := by
  have hu : urgent s = false := by
    unfold engineEnabled at he
    exact (Bool.or_eq_false_iff.1 he).1
  rw [step_of_unmarked hf hr]
  simp [move, nextMover, hu, he, hc]

end Sys2Proof.Machine
end

-- Family 00_scope.md, part three: its obligations.
section
/-! Obligations O10, O11 and O13, from the lemmas on the caller's list and on who moves. -/

namespace Sys2Proof.Machine

/-- Settles O10: each kind of move leaves the caller's list or takes its head, and the head is taken while a command is in progress
only where it does not wait and is no register-access line. -/
theorem callerWaits : Obligations.CallerWaits := by
  intro s t h
  obtain ⟨_, _, e, he, hm⟩ := step_next_cases h
  refine (hm.inbox_cases he).imp_right fun ⟨x, hx, hw⟩ => ⟨x, hx, fun hheld => ?_⟩
  rcases hw with ⟨hwait, hline⟩ | hidle
  · rcases hheld with hx' | hacc
    · simp [hwait] at hx'
    · simp [(isAccess_iff x.request).2 hacc] at hline
  · exact hidle

/-- Settles O11: the choice is the head of the schedule, and taking it leaves the chosen agent a step. -/
theorem scheduleChoosesAgent : Obligations.ScheduleChoosesAgent := by
  intro s a b rest hf hr hu ha hb
  constructor <;> intro hsched
  · obtain ⟨t, ht⟩ := Option.isSome_iff_exists.1
      ((sequencerStep_isSome_setEnv s { s.env with sched := rest }).trans (Option.isSome_of_eq_some ha))
    have hu' : urgent (s.setEnv { s.env with sched := rest }) = false := (urgent_setEnv rfl).trans hu
    exact ⟨t, (step_of_sequencer_scheduled hf hr hu ha hb hsched).trans (engineMove_of_sequencerStep hu' ht), ht⟩
  · obtain ⟨t, ht⟩ := Option.isSome_iff_exists.1
      ((controllerStep_isSome_setEnv s { s.env with sched := rest }).trans (Option.isSome_of_eq_some hb))
    exact ⟨t, (step_of_controller_scheduled hf hr hu ha hb hsched).trans (controllerMove_of_controllerStep ht), ht⟩

/-- Settles O13: in both cases of the premise the program side has no step either, so nobody moves. -/
theorem holdKeepsState : Obligations.HoldKeepsState := by
  intro s hf hr hc hrest
  refine step_of_no_mover hf hr ?_ hc
  rcases hrest with ⟨hbusy, hq, hu⟩ | ⟨hidle, hempty⟩
  · simp [engineEnabled, hbusy, hq, hu]
  · simp [engineEnabled, urgent, hidle, hempty]

end Sys2Proof.Machine
end

-- Family 10_state.md, part one: the decoder on what the encoder writes.
section
/-! The fields of a descriptor word read back (R56), a 32-bit access at an offset of the table decoded (R65), and obligation O3 from
the two. -/

namespace Sys2Proof

/-! Each field of a descriptor is what `descWord` put there: the parts below it are dropped one by one. -/

@[simp] theorem descA7_descWord (op : BitVec 2) (arg reg : Byte) (a7 : Addr7) : descA7 (descWord op arg reg a7) = a7 :=
  BitVec.extractLsb'_append_eq_right

@[simp] theorem descReg_descWord (op : BitVec 2) (arg reg : Byte) (a7 : Addr7) : descReg (descWord op arg reg a7) = reg := by
  rw [descReg, descWord, BitVec.extractLsb'_append_eq_of_le (by decide), BitVec.extractLsb'_append_eq_of_le (by decide),
    BitVec.extractLsb'_append_eq_right]

@[simp] theorem descArg_descWord (op : BitVec 2) (arg reg : Byte) (a7 : Addr7) : descArg (descWord op arg reg a7) = arg := by
  rw [descArg, descWord, BitVec.extractLsb'_append_eq_of_le (by decide), BitVec.extractLsb'_append_eq_of_le (by decide),
    BitVec.extractLsb'_append_eq_of_le (by decide), BitVec.extractLsb'_append_eq_right]

@[simp] theorem descOp_descWord (op : BitVec 2) (arg reg : Byte) (a7 : Addr7) : descOp (descWord op arg reg a7) = op := by
  rw [descOp, descWord, BitVec.extractLsb'_append_eq_of_le (by decide), BitVec.extractLsb'_append_eq_of_le (by decide),
    BitVec.extractLsb'_append_eq_of_le (by decide), BitVec.extractLsb'_append_eq_of_le (by decide),
    BitVec.extractLsb'_append_eq_right]

@[simp] theorem descReservedZero_descWord (op : BitVec 2) (arg reg : Byte) (a7 : Addr7) :
    descReservedZero (descWord op arg reg a7) = true := by
  have hhigh : (descWord op arg reg a7).extractLsb' 26 6 = 0#6 := by
    rw [descWord, BitVec.extractLsb'_append_eq_of_le (by decide), BitVec.extractLsb'_append_eq_of_le (by decide),
      BitVec.extractLsb'_append_eq_of_le (by decide), BitVec.extractLsb'_append_eq_of_le (by decide),
      BitVec.extractLsb'_append_eq_of_le (by decide), BitVec.extractLsb'_eq_self]
  obtain ⟨⟨_, hbit⟩, _⟩ := Laws.RowFormat.descWord_fixed op arg reg a7
  rw [descReservedZero, hhigh, hbit]
  rfl

/-- A 32-bit read at `base + off` is the read column of the table at `off`, whatever the base. -/
theorem decode_regReadAt (base off : Nat) : decode base (regReadAt base off) = decodeRegRead off := by
  simp [decode, regReadAt, decodeAccess]

/-- And a 32-bit write the write column. -/
theorem decode_regWriteAt (base off : Nat) (v : Word) : decode base (regWriteAt base off v) = decodeRegWrite off v := by
  simp [decode, regWriteAt, decodeAccess]

theorem decode_cr2Write (base : Nat) (v : Word) :
    decode base (regWriteAt base offCr2 v) = .instr (decodeCr2Write v) :=
  decode_regWriteAt base offCr2 v

/-- Settles O3, row by row: a descriptor by its fields, a CR2 write by the START and RD_WRN its well-formedness gives, another
access by its offset, a facade line as it is. -/
theorem decodeEncodeAgree : Obligations.DecodeEncodeAgree := by
  intro base i hwf
  cases i with
  | singleRead a7 reg => simp [encode, decode, decodeDescriptor]
  | singleWrite a7 reg val => simp [encode, decode, decodeDescriptor]
  | burstRead a7 reg n buf buflen => simp [encode, decode, decodeDescriptor]
  | wrCr2StartW v =>
    have hbits : startBit v = true ∧ rdWrnBit v = false := by simpa [Instr.wf, startBit, rdWrnBit] using hwf
    simp [encode, decode_cr2Write, decodeCr2Write, hbits]
  | wrCr2StartR v =>
    have hbits : startBit v = true ∧ rdWrnBit v = true := by simpa [Instr.wf, startBit, rdWrnBit] using hwf
    simp [encode, decode_cr2Write, decodeCr2Write, hbits]
  | wrCr2NoStart v =>
    have hstart : startBit v = false := by simpa [Instr.wf, startBit] using hwf
    simp [encode, decode_cr2Write, decodeCr2Write, hstart]
  | rdCr2 => exact decode_regReadAt base offCr2
  | rdIsr => exact decode_regReadAt base offIsr
  | wrTxdr v => exact decode_regWriteAt base offTxdr v
  | rdTxdr => exact decode_regReadAt base offTxdr
  | rdRxdr => exact decode_regReadAt base offRxdr
  | facadeRead slave reg => rfl
  | facadeWrite slave reg val => rfl
  | facadeReadAll slave range buf buflen => rfl

end Sys2Proof
end

-- Family 10_state.md, part two: the results of a controller step, and who may have changed a state.
section
/-! SUPPORT. What a controller step can do, said once, as `Stepped` does for the sequencer; what a whole step can be where the caller's
list does not matter; and what each agent's step leaves as it was. -/

namespace Sys2Proof.Machine

/-- The results of a controller step (R77 to R84), each with what the state was. -/
inductive ControllerStepped (s : State) : State → Prop where
  | addressNacked (e : Env) (hp : s.ctl.phase = .addr) :
      ControllerStepped s { s with
        reg := { s.reg with cr2 := clearStart s.reg.cr2, isr := s.reg.isr.onNack }, ctl := { s.ctl with phase := .idle },
        trace := s.trace ++ [.addrByte s.ctl.sadd7 s.ctl.rw, .sNack, .stop], env := e }
  | addressedWrite (e : Env) (hp : s.ctl.phase = .addr) (hw : s.ctl.rw = .write) :
      ControllerStepped s { s with
        reg := { s.reg with cr2 := clearStart s.reg.cr2, isr := s.reg.isr.onTxReady }, ctl := { s.ctl with phase := .txNeed },
        trace := s.trace ++ [.addrByte s.ctl.sadd7 s.ctl.rw, .sAck], env := e }
  | addressedRead (e : Env) (hp : s.ctl.phase = .addr) (hw : s.ctl.rw = .read) :
      ControllerStepped s { s with
        reg := { s.reg with cr2 := clearStart s.reg.cr2 }, ctl := { s.ctl with phase := .rxRecv },
        trace := s.trace ++ [.addrByte s.ctl.sadd7 s.ctl.rw, .sAck], env := e }
  | sentNacked (e : Env) (hp : s.ctl.phase = .txSend) :
      ControllerStepped s { s with
        reg := { s.reg with isr := s.reg.isr.onShift.onNack }, ctl := { s.ctl with shift := s.reg.txdata, phase := .idle },
        trace := s.trace ++ [.mWrite s.reg.txdata, .sNack, .stop], env := e }
  | sentLast (e : Env) (hp : s.ctl.phase = .txSend) (h0 : s.ctl.rem - 1#8 = 0#8) :
      ControllerStepped s { s with
        reg := { s.reg with isr := s.reg.isr.onShift },
        ctl := { s.ctl with shift := s.reg.txdata, rem := s.ctl.rem - 1#8, phase := .endPhase },
        trace := s.trace ++ [.mWrite s.reg.txdata, .sAck], env := e }
  | sentMore (e : Env) (hp : s.ctl.phase = .txSend) (h0 : s.ctl.rem - 1#8 ≠ 0#8) :
      ControllerStepped s { s with
        reg := { s.reg with isr := s.reg.isr.onShift.onTxReady },
        ctl := { s.ctl with shift := s.reg.txdata, rem := s.ctl.rem - 1#8, phase := .txNeed },
        trace := s.trace ++ [.mWrite s.reg.txdata, .sAck], env := e }
  | receivedLast (e : Env) (b : Byte) (hp : s.ctl.phase = .rxRecv) (hr : s.reg.isr.rxne = false) (h0 : s.ctl.rem - 1#8 = 0#8) :
      ControllerStepped s { s with
        reg := { s.reg with rxdata := b, isr := s.reg.isr.onReceive },
        ctl := { s.ctl with rem := s.ctl.rem - 1#8, phase := .endPhase },
        trace := s.trace ++ [.sData b, .mNack], env := e }
  | receivedMore (e : Env) (b : Byte) (hp : s.ctl.phase = .rxRecv) (hr : s.reg.isr.rxne = false) (h0 : s.ctl.rem - 1#8 ≠ 0#8) :
      ControllerStepped s { s with
        reg := { s.reg with rxdata := b, isr := s.reg.isr.onReceive }, ctl := { s.ctl with rem := s.ctl.rem - 1#8 },
        trace := s.trace ++ [.sData b, .mAck], env := e }
  | stopped (hp : s.ctl.phase = .endPhase) (ha : s.ctl.autoend = true) :
      ControllerStepped s { s with
        reg := { s.reg with isr := s.reg.isr.onStop }, ctl := { s.ctl with phase := .idle }, trace := s.trace ++ [.stop] }
  | held (hp : s.ctl.phase = .endPhase) (ha : s.ctl.autoend = false) :
      ControllerStepped s { s with
        reg := { s.reg with isr := s.reg.isr.onComplete }, ctl := { s.ctl with phase := .tcHold } }

theorem endStep_stepped {s : State} (hp : s.ctl.phase = .endPhase) : ControllerStepped s (endStep s) := by
  unfold endStep
  split
  · exact .stopped hp ‹_›
  · exact .held hp (Bool.eq_false_iff.2 ‹_›)

theorem controllerStep_stepped {s t : State} (h : controllerStep s = some t) : ControllerStepped s t := by
  rcases controllerStep_cases h with ⟨hp, rfl⟩ | ⟨hp, rfl⟩ | ⟨hp, hr, rfl⟩ | ⟨hp, rfl⟩
  · obtain ⟨e, _, h | ⟨hw, h⟩ | ⟨hw, h⟩⟩ := addressStep_cases s <;> rw [h]
    · exact .addressNacked e hp
    · exact .addressedWrite e hp hw
    · exact .addressedRead e hp hw
  · obtain ⟨e, _, h | ⟨h0, h⟩ | ⟨h0, h⟩⟩ := transmitStep_cases s <;> rw [h]
    · exact .sentNacked e hp
    · exact .sentLast e hp h0
    · exact .sentMore e hp h0
  · obtain ⟨e, b, _, ⟨h0, h⟩ | ⟨h0, h⟩⟩ := receiveStep_cases s <;> rw [h]
    · exact .receivedLast e b hp hr h0
    · exact .receivedMore e b hp hr h0
  · exact endStep_stepped hp

/-- What a step can be where the caller's list and the schedule do not matter: an environment is chosen, and in it nothing moved, or
one agent did. -/
theorem step_next_agent {s t : State} (h : step s = .next t) :
    ∃ e : Env, t = s.setEnv e ∨ Stepped (s.setEnv e) t ∨ ControllerStepped (s.setEnv e) t ∨ Executed True (s.setEnv e) t := by
  obtain ⟨_, _, e, _, rfl | ⟨_, hs⟩ | hc | ⟨x, rest, _, _, hrun⟩⟩ := step_next_cases h
  · exact ⟨e, .inl rfl⟩
  · exact ⟨e, .inr (.inl (sequencerStep_stepped hs).2)⟩
  · exact ⟨e, .inr (.inr (.inl (controllerStep_stepped hc)))⟩
  · exact ⟨_, .inr (.inr (.inr (runRequest_next hrun)))⟩

/-! ### The frame of the controller -/

theorem ControllerStepped.seq_eq {s t : State} (h : ControllerStepped s t) : t.seq = s.seq := by
  cases h <;> rfl

theorem ControllerStepped.mem_eq {s t : State} (h : ControllerStepped s t) : t.mem = s.mem := by
  cases h <;> rfl

theorem ControllerStepped.faults_eq {s t : State} (h : ControllerStepped s t) : t.faults = s.faults := by
  cases h <;> rfl

theorem ControllerStepped.refused_eq {s t : State} (h : ControllerStepped s t) : t.refused = s.refused := by
  cases h <;> rfl

theorem ControllerStepped.params_eq {s t : State} (h : ControllerStepped s t) : t.params = s.params := by
  cases h <;> rfl

/-! ### The frame of the sequencer -/

/-- A micro-step moves the sequencer and keeps the command: its shape and operands are as they were (R26). -/
theorem Stepped.seq_eq {s t : State} (h : Stepped s t) :
    t.seq = { s.seq with status := t.seq.status, i := t.seq.i, result := t.seq.result, pc := t.seq.pc } := by
  cases h with
  | started v => simp [State.setPc]
  | _ => rfl

/-- The operands one by one. -/
theorem Stepped.operands_eq {s t : State} (h : Stepped s t) :
    t.seq.cmd = s.seq.cmd ∧ t.seq.a7 = s.seq.a7 ∧ t.seq.reg = s.seq.reg ∧ t.seq.val = s.seq.val ∧ t.seq.n = s.seq.n ∧
    t.seq.buf = s.seq.buf ∧ t.seq.buflen = s.seq.buflen := by
  rw [h.seq_eq]
  exact ⟨rfl, rfl, rfl, rfl, rfl, rfl, rfl⟩

theorem Stepped.params_eq {s t : State} (h : Stepped s t) : t.params = s.params := by
  cases h with
  | started v => exact State.beginPhase_params s v
  | startedBurst v => exact State.beginPhase_params s v
  | _ => rfl

theorem Stepped.reply_eq {s t : State} (h : Stepped s t) : t.reply = s.reply := by
  cases h with
  | started v => exact State.beginPhase_reply s v
  | startedBurst v => exact State.beginPhase_reply s v
  | _ => rfl

theorem Stepped.rxdata_eq {s t : State} (h : Stepped s t) : t.reg.rxdata = s.reg.rxdata := by
  cases h with
  | started v => exact State.beginPhase_rxdata s v
  | startedBurst v => exact State.beginPhase_rxdata s v
  | _ => rfl

/-- A micro-step writes host memory at the RDRX of a burst alone, the byte at `buf + i` (R28, R92). -/
theorem Stepped.mem_cases {s t : State} (h : Stepped s t) :
    t.mem = s.mem ∨
    currentMicro s = some (.rdRx .buffer) ∧ t.mem = Memory.write s.mem (s.seq.buf + s.seq.i.toNat) s.reg.rxdata := by
  cases h with
  | started v => exact .inl (State.beginPhase_mem s v)
  | startedBurst v => exact .inl (State.beginPhase_mem s v)
  | buffered hm => exact .inr ⟨hm, rfl⟩
  | _ => exact .inl rfl

theorem Stepped.trace_cases {s t : State} (h : Stepped s t) :
    t.trace = s.trace ∨ t.trace = s.trace ++ [.start] ∨ t.trace = s.trace ++ [.repStart] := by
  cases h with
  | started v _ _ hq =>
    rcases State.beginPhase_bus v hq with ⟨_, ht, _⟩ | ⟨_, ht, _⟩
    · exact .inr (.inl ht)
    · exact .inr (.inr ht)
  | startedBurst v _ _ hq =>
    rcases State.beginPhase_bus v hq with ⟨_, ht, _⟩ | ⟨_, ht, _⟩
    · exact .inr (.inl ht)
    · exact .inr (.inr ht)
  | _ => exact .inl rfl

/-! ### The frame of a request -/

theorem Presented.mem_eq {s t : State} (h : Presented s t) : t.mem = s.mem := by
  cases h <;> rfl

/-- No request stores a byte: host memory is the sequencer's to write (R28). -/
theorem Executed.mem_eq {wf : Prop} {s t : State} (h : Executed wf s t) : t.mem = s.mem := by
  cases h with
  | presented h => exact h.mem_eq
  | started v => exact State.beginPhase_mem s v
  | _ => rfl

/-! ### The micro-step at `seq.pc` -/

/-- The RDRX to the buffer stands in the program of a burst, at index 6 (R97). -/
theorem currentMicro_eq_buffer {s : State} (h : currentMicro s = some (.rdRx .buffer)) :
    s.seq.cmd = .burstRead ∧ s.seq.pc = 6 := by
  unfold currentMicro program at h
  split at h
  · exact absurd (List.mem_of_getElem? h) (by simp)
  · exact absurd (List.mem_of_getElem? h) (by simp)
  · refine ⟨‹_›, ?_⟩
    obtain ⟨hlen, hget⟩ := List.getElem?_eq_some_iff.1 h
    generalize s.seq.pc = k at hlen hget ⊢
    simp only [List.length_cons, List.length_nil] at hlen
    interval_cases k <;> simp_all

theorem startBit_cr2Value (a7 : Addr7) (rw : Dir) (n : Byte) (ae : Bool) : startBit (cr2Value a7 rw n ae) = true := by
  simp [startBit, cr2Value]

theorem startBit_of_mem_program {q : Seq} {v : Word} (h : Micro.wrCr2 v ∈ program q ∨ Micro.wrCr2Burst v ∈ program q) :
    startBit v = true := by
  unfold program at h
  split at h <;>
    simp only [List.mem_cons, Micro.wrCr2.injEq, Micro.wrCr2Burst.injEq, reduceCtorEq, List.not_mem_nil, or_false, false_or] at h
  · exact h ▸ startBit_cr2Value _ _ _ _
  · rcases h with rfl | rfl <;> exact startBit_cr2Value _ _ _ _
  · rcases h with rfl | rfl <;> exact startBit_cr2Value _ _ _ _

/-- The CR2 words the engine writes all have START set (R51, R89). -/
theorem startBit_of_currentMicro {s : State} {v : Word}
    (h : currentMicro s = some (.wrCr2 v) ∨ currentMicro s = some (.wrCr2Burst v)) : startBit v = true :=
  startBit_of_mem_program (h.imp List.mem_of_getElem? List.mem_of_getElem?)

end Sys2Proof.Machine
end

-- Family 10_state.md, part three: the invariant of the block.
section
/-! The block's invariant (R25, R87 and the stored forms) is kept by each result of each agent's step; obligation O42 puts them
together, and obligation O41 has it at reset. -/

namespace Sys2Proof.Machine

/-! ### Words of CR2 -/

theorem and_mbz_of_supported {v : Word} (h : hasUnsupportedField v = false) : v &&& cr2Mbz = 0#32 := by
  simpa [hasUnsupportedField] using h

theorem startBit_clearStart (v : Word) : startBit (clearStart v) = false := by
  simp [startBit, clearStart]

theorem clearStart_and_mbz {v : Word} (h : v &&& cr2Mbz = 0#32) : clearStart v &&& cr2Mbz = 0#32 := by
  rw [clearStart, BitVec.and_assoc, BitVec.and_comm (~~~_), ← BitVec.and_assoc, h, BitVec.zero_and]

/-! ### What the invariant does not look at -/

/-- The invariant looks at CR2, TXDR, the controller, the flags but RXNE, and at host memory and the fault set, whose forms it
asks for. -/
theorem State.Inv.of_keeps {s t : State} (h : s.Inv) (hisr : t.reg.isr = { s.reg.isr with rxne := t.reg.isr.rxne })
    (hcr2 : t.reg.cr2 = s.reg.cr2) (htx : t.reg.txdata = s.reg.txdata) (hctl : t.ctl = s.ctl) (hmem : Memory.wf t.mem)
    (hfaults : t.faults.Nodup) : t.Inv := by
  obtain ⟨⟨hbusy, htc, htxis, htxe, hstart, hrem⟩, hshift, hmbz, _, _⟩ := h
  exact ⟨⟨by rwa [hisr, hctl], by rwa [hisr, hctl], by rwa [hisr, hctl], by rwa [hisr, hctl], by rwa [hcr2, hctl], by rwa [hctl]⟩,
    by rwa [hctl, htx], by rwa [hcr2], hmem, hfaults⟩

theorem State.Inv.setEnv {s : State} (h : s.Inv) (e : Env) : (s.setEnv e).Inv :=
  h.of_keeps rfl rfl rfl rfl h.mem h.faults

theorem State.Inv.setSeq {s : State} (h : s.Inv) (q : Seq) : (s.setSeq q).Inv :=
  h.of_keeps rfl rfl rfl rfl h.mem h.faults

theorem State.Inv.setReply {s : State} (h : s.Inv) (v : Word) : (s.setReply v).Inv :=
  h.of_keeps rfl rfl rfl rfl h.mem h.faults

theorem State.Inv.refuse {s : State} (h : s.Inv) (r : Refusal) : (s.refuse r).Inv :=
  h.of_keeps rfl rfl rfl rfl h.mem h.faults

theorem State.Inv.onRxRead {s : State} (h : s.Inv) : (s.setIsr s.reg.isr.onRxRead).Inv :=
  h.of_keeps rfl rfl rfl rfl h.mem h.faults

theorem State.Inv.writeMem {s : State} (h : s.Inv) (a : Nat) (b : Byte) : (s.writeMem a b).Inv :=
  h.of_keeps rfl rfl rfl rfl (Memory.write_wf a b h.mem) h.faults

/-- A fault joins the set once (R29). -/
theorem State.Inv.raise {s : State} (h : s.Inv) (f : Fault) : (s.raise f).Inv := by
  refine h.of_keeps rfl rfl rfl rfl h.mem ?_
  rw [State.raise_faults]
  split
  · exact h.faults
  · exact List.nodup_append.2 ⟨h.faults, List.nodup_singleton f, by
      simpa using fun a ha (heq : a = f) => ‹f ∉ s.faults› (heq ▸ ha)⟩

/-! ### The register accesses that are accepted -/

/-- R66: the phase is latched with START, BUSY and a count that is not 0, and TC is cleared. -/
theorem State.Inv.beginPhase {s : State} (h : s.Inv) {v : Word} (hs : startBit v = true) (hu : hasUnsupportedField v = false)
    (hq : s.quiescent = true) (hn : cr2Nbytes v ≠ 0#8) : (s.beginPhase v).Inv := by
  obtain ⟨⟨hbusy, htc, htxis, htxe, _, _⟩, _, _, hmem, hfaults⟩ := h
  have hflags : (s.beginPhase v).reg.isr.busy = true ∧ (s.beginPhase v).reg.isr.tc = false ∧
      (s.beginPhase v).reg.isr.txis = false ∧ (s.beginPhase v).reg.isr.txe = true := by
    rcases State.beginPhase_bus v hq with ⟨hp, _, hisr⟩ | ⟨hp, _, hisr⟩ <;>
      simp_all [Isr.onStart, Isr.onRepStart]
  obtain ⟨hbusy', htc', htxis', htxe'⟩ := hflags
  exact ⟨⟨by simp [hbusy'], by simp [htc'], by simp [htxis'], by simp [htxe'], by simp [hs], fun _ => by simpa using hn⟩,
    by simp, by simpa using and_mbz_of_supported hu, by simpa using hmem, by simpa using hfaults⟩

/-- R67: the word stored has no START, and no phase begins. -/
theorem State.Inv.setCr2 {s : State} (h : s.Inv) {v : Word} (hs : startBit v = false) (hu : hasUnsupportedField v = false)
    (hq : s.quiescent = true) : (s.setCr2 v).Inv := by
  obtain ⟨⟨hbusy, htc, htxis, htxe, _, hrem⟩, hshift, _, hmem, hfaults⟩ := h
  have haddr : s.ctl.phase ≠ .addr := by
    rcases (State.quiescent_iff s).1 hq with hp | hp <;> simp [hp]
  exact ⟨⟨hbusy, htc, htxis, htxe, by simp [hs, haddr], hrem⟩, hshift, and_mbz_of_supported hu, hmem, hfaults⟩

/-- R71: from TxNeed to TxSend, TXIS and TXE cleared, the byte in TXDR and in `ctl.shift`. -/
theorem State.Inv.sendByte {s : State} (h : s.Inv) (b : Byte) (hp : s.ctl.phase = .txNeed) :
    (((s.setTxdata b).setIsr s.reg.isr.onTxWrite).setCtl { s.ctl with shift := b, phase := .txSend }).Inv := by
  obtain ⟨⟨hbusy, htc, htxis, htxe, hstart, hrem⟩, _, hmbz, hmem, hfaults⟩ := h
  refine ⟨?_, fun _ => rfl, hmbz, hmem, hfaults⟩
  constructor <;> simp_all [Isr.onTxWrite]

/-! ### The agents -/

theorem Presented.inv {s t : State} (h : Presented s t) (hi : s.Inv) : t.Inv := by
  cases h with
  | overlap | unbound | badRange => exact hi.refuse _
  | rejected | read | write | burst => exact hi.setSeq _

theorem Executed.inv {s t : State} (h : Executed True s t) (hi : s.Inv) : t.Inv := by
  cases h with
  | presented h => exact h.inv hi
  | refused r => exact hi.refuse r
  | faulted f => exact hi.raise f
  | started v hs hu hq hn => exact hi.beginPhase (hs trivial) hu hq hn
  | stored v hs hu hq => exact hi.setCr2 (hs trivial) hu hq
  | replied v => exact hi.setReply v
  | sent b hp => exact hi.sendByte b hp
  | received => exact hi.onRxRead.setReply _

theorem Stepped.inv {s t : State} (h : Stepped s t) (hi : s.Inv) : t.Inv := by
  cases h with
  | faulted f => exact hi.raise f
  | refused r => exact hi.refuse r
  | started v hm hu hq hn => exact (hi.beginPhase (startBit_of_currentMicro (.inl hm)) hu hq hn).setSeq _
  | startedBurst v hm hu hq hn => exact (hi.beginPhase (startBit_of_currentMicro (.inr hm)) hu hq hn).setSeq _
  | passed => exact hi.setSeq _
  | polled => exact hi
  | sent b _ hp => exact (hi.sendByte b hp).setSeq _
  | result => exact hi.onRxRead.setSeq _
  | buffered => exact (hi.onRxRead.writeMem _ _).setSeq _
  | finished => exact hi.setSeq _

/-- R87 after each controller step: the flags it sets and clears are those of the phase it goes to. -/
theorem ControllerStepped.phaseFlags {s t : State} (h : ControllerStepped s t) (hf : PhaseFlags s) : PhaseFlags t := by
  obtain ⟨hbusy, htc, htxis, htxe, hstart, hrem⟩ := hf
  cases h with
  | addressNacked => constructor <;> simp_all [Isr.onNack, startBit_clearStart]
  | addressedWrite => constructor <;> simp_all [Isr.onTxReady, startBit_clearStart]
  | addressedRead => constructor <;> simp_all [startBit_clearStart]
  | sentNacked => constructor <;> simp_all [Isr.onNack, Isr.onShift]
  | sentLast => constructor <;> simp_all [Isr.onShift]
  | sentMore => constructor <;> simp_all [Isr.onShift, Isr.onTxReady]
  | receivedLast => constructor <;> simp_all [Isr.onReceive]
  | receivedMore => constructor <;> simp_all [Isr.onReceive]
  | stopped => constructor <;> simp_all [Isr.onStop]
  | held => constructor <;> simp_all [Isr.onComplete]

theorem ControllerStepped.phase_ne_txSend {s t : State} (h : ControllerStepped s t) : t.ctl.phase ≠ .txSend := by
  cases h with
  | receivedMore _ _ hp => exact hp ▸ nofun
  | _ => exact nofun

/-- The controller clears START and writes no other bit of CR2 (R77). -/
theorem ControllerStepped.cr2_and_mbz {s t : State} (h : ControllerStepped s t) (hm : s.reg.cr2 &&& cr2Mbz = 0#32) :
    t.reg.cr2 &&& cr2Mbz = 0#32 := by
  cases h with
  | addressNacked | addressedWrite | addressedRead => exact clearStart_and_mbz hm
  | _ => exact hm

theorem ControllerStepped.inv {s t : State} (h : ControllerStepped s t) (hi : s.Inv) : t.Inv :=
  ⟨h.phaseFlags hi.flags, fun hp => absurd hp h.phase_ne_txSend, h.cr2_and_mbz hi.cr2, h.mem_eq ▸ hi.mem,
    h.faults_eq ▸ hi.faults⟩

/-- Settles O42: the invariant does not look at the environment a step chooses, and each result of each agent keeps it. -/
theorem stepKeepsInv : Obligations.StepKeepsInv := by
  intro s t hi h
  obtain ⟨e, rfl | hs | hc | hx⟩ := step_next_agent h
  · exact hi.setEnv e
  · exact hs.inv (hi.setEnv e)
  · exact hc.inv (hi.setEnv e)
  · exact hx.inv (hi.setEnv e)

/-! ### Reset -/

theorem State.resetWith_inv (p : Params) (u : Upstream) : (State.resetWith p u).Inv := by
  have hflags : PhaseFlags (State.resetWith p u) := by
    constructor <;> simp [State.resetWith, startBit]
  exact ⟨hflags, fun _ => rfl, BitVec.zero_and, List.Pairwise.nil, List.nodup_nil⟩

/-- Settles O41: after reset nothing is in progress or presented, the bus is free and host memory has no byte. -/
theorem resetMeetsInvariants : Obligations.ResetMeetsInvariants := by
  refine ⟨rfl, fun p u s hs => ?_⟩
  subst hs
  have hinv := State.resetWith_inv p u
  have hgrammar : (State.resetWith p u).onGrammar := ⟨.free, rfl, rfl⟩
  have hengine : (State.resetWith p u).EngineInv := ⟨hinv, nofun, rfl, ⟨rfl, rfl⟩⟩
  have hbus : (State.resetWith p u).lpBusIdle := ⟨rfl, rfl⟩
  have hclean : (State.resetWith p u).lpClean := ⟨⟨rfl, rfl⟩, rfl⟩
  have hbuffers : (State.resetWith p u).lpBuffers := ⟨nofun, nofun⟩
  exact ⟨hinv, hgrammar, hengine, trivial, fun _ _ => rfl, hbus, hclean, hbuffers, fun hup => ⟨hup, hbus, hclean, hbuffers⟩⟩

end Sys2Proof.Machine
end

-- Family 10_state.md, part four: history and marks.
section
/-! What no step takes back (R18, R22, R27, R33) and what no step unmarks (R29), agent by agent: obligations O57, O58 and O12; and the
TXDR write, obligation O18. -/

namespace Sys2Proof.Machine

/-! ### History -/

/-- What a step never takes back and never changes (R18, R22, R27, R33). -/
structure KeepsHistory (s t : State) : Prop where
  nackf    : s.reg.isr.nackf = true → t.reg.isr.nackf = true
  stopf    : s.reg.isr.stopf = true → t.reg.isr.stopf = true
  trace    : s.trace <+: t.trace
  params   : t.params = s.params
  upstream : t.reg.upstream = s.reg.upstream

/-- The history does not look at the environment. -/
theorem KeepsHistory.of_setEnv {s t : State} {e : Env} (h : KeepsHistory (s.setEnv e) t) : KeepsHistory s t :=
  ⟨h.nackf, h.stopf, h.trace, h.params, h.upstream⟩

theorem State.beginPhase_keepsHistory (s : State) (v : Word) : KeepsHistory s (s.beginPhase v) := by
  unfold State.beginPhase
  split <;> exact ⟨id, id, List.prefix_append _ _, rfl, rfl⟩

theorem Presented.keepsHistory {s t : State} (h : Presented s t) : KeepsHistory s t := by
  cases h <;> exact ⟨id, id, List.prefix_rfl, rfl, rfl⟩

theorem Executed.keepsHistory {wf : Prop} {s t : State} (h : Executed wf s t) : KeepsHistory s t := by
  cases h with
  | presented h => exact h.keepsHistory
  | started v => exact s.beginPhase_keepsHistory v
  | _ => exact ⟨id, id, List.prefix_rfl, rfl, rfl⟩

theorem Stepped.keepsHistory {s t : State} (h : Stepped s t) : KeepsHistory s t := by
  cases h with
  | started v | startedBurst v =>
    obtain ⟨hnackf, hstopf, htrace, hparams, hupstream⟩ := s.beginPhase_keepsHistory v
    exact ⟨hnackf, hstopf, htrace, hparams, hupstream⟩
  | _ => exact ⟨id, id, List.prefix_rfl, rfl, rfl⟩

theorem ControllerStepped.keepsHistory {s t : State} (h : ControllerStepped s t) : KeepsHistory s t := by
  cases h with
  | addressNacked | sentNacked => exact ⟨fun _ => rfl, fun _ => rfl, List.prefix_append _ _, rfl, rfl⟩
  | stopped => exact ⟨id, fun _ => rfl, List.prefix_append _ _, rfl, rfl⟩
  | held => exact ⟨id, id, List.prefix_rfl, rfl, rfl⟩
  | _ => exact ⟨id, id, List.prefix_append _ _, rfl, rfl⟩

/-- Settles O57: in the environment a step chooses, each agent keeps the history. -/
theorem stepKeepsHistory : Obligations.StepKeepsHistory := by
  intro s t h
  have hkeeps : KeepsHistory s t := by
    obtain ⟨e, rfl | hs | hc | hx⟩ := step_next_agent h
    · exact ⟨id, id, List.prefix_rfl, rfl, rfl⟩
    · exact hs.keepsHistory.of_setEnv
    · exact hc.keepsHistory.of_setEnv
    · exact hx.keepsHistory.of_setEnv
  obtain ⟨hnackf, hstopf, htrace, hparams, hupstream⟩ := hkeeps
  exact ⟨hnackf, hstopf, htrace, hparams, hupstream⟩

/-! ### Marks -/

/-- No mark of `s` is lost in `t`: the faults keep their order, a refusal its reason (R29). -/
def MarksGrow (s t : State) : Prop := s.faults <+: t.faults ∧ ∀ r, s.refused = some r → t.refused = some r

theorem State.raise_marksGrow (s : State) (f : Fault) : MarksGrow s (s.raise f) := by
  refine ⟨?_, fun _ => id⟩
  rw [State.raise_faults]
  split
  · exact List.prefix_rfl
  · exact List.prefix_append _ _

theorem State.refuse_marksGrow (s : State) (r : Refusal) : MarksGrow s (s.refuse r) :=
  ⟨List.prefix_rfl, fun r' h => by simp [h]⟩

theorem MarksGrow.of_eq {s t : State} (hf : t.faults = s.faults) (hr : t.refused = s.refused) : MarksGrow s t :=
  ⟨hf ▸ List.prefix_rfl, fun _ h => hr.trans h⟩

theorem State.beginPhase_marksGrow (s : State) (v : Word) : MarksGrow s (s.beginPhase v) :=
  .of_eq (s.beginPhase_faults v) (s.beginPhase_refused v)

theorem Presented.marksGrow {s t : State} (h : Presented s t) : MarksGrow s t := by
  cases h with
  | overlap | unbound | badRange => exact s.refuse_marksGrow _
  | _ => exact .of_eq rfl rfl

theorem Executed.marksGrow {wf : Prop} {s t : State} (h : Executed wf s t) : MarksGrow s t := by
  cases h with
  | presented h => exact h.marksGrow
  | refused r => exact s.refuse_marksGrow r
  | faulted f => exact s.raise_marksGrow f
  | started v => exact s.beginPhase_marksGrow v
  | _ => exact .of_eq rfl rfl

theorem Stepped.marksGrow {s t : State} (h : Stepped s t) : MarksGrow s t := by
  cases h with
  | refused r => exact s.refuse_marksGrow r
  | faulted f => exact s.raise_marksGrow f
  | started v | startedBurst v => exact s.beginPhase_marksGrow v
  | _ => exact .of_eq rfl rfl

/-- Settles O58: faults and refusals enter by `raise` and `refuse` alone, which keep the marks before them. -/
theorem marksOnlyGrow : Obligations.MarksOnlyGrow := by
  refine ⟨fun i s t h => ?_, fun s t h => (sequencerStep_stepped h).2.marksGrow, fun s t h => ?_⟩
  · obtain ⟨u, hu, hx⟩ := exec_executed i s
    obtain rfl : u = t := by simpa [hu] using h
    exact hx.marksGrow
  · exact ⟨(controllerStep_stepped h).faults_eq, (controllerStep_stepped h).refused_eq⟩

/-- Settles O12: the mark is looked at before anything moves. -/
theorem markedStateStops : Obligations.MarkedStateStops := by
  intro s
  constructor
  · intro f rest hf
    simp [step, advance, hf]
  · intro r hf hr
    simp [step, advance, hf, hr]

/-! ### The TXDR write (R71), case by case -/

theorem writeTxdr_of_highBits {s : State} {v : Word} (h : txdrHighBits v ≠ 0#24) :
    writeTxdr s v = .refuse .unsupportedTxdrBits := by
  rw [writeTxdr, if_pos h]

theorem writeTxdr_of_not_txNeed {s : State} {v : Word} (h : txdrHighBits v = 0#24) (hp : s.ctl.phase ≠ .txNeed) :
    writeTxdr s v = .fault .txdrNotReady := by
  simp [writeTxdr, h, hp]

theorem writeTxdr_of_txNeed {s : State} {v : Word} (h : txdrHighBits v = 0#24) (hp : s.ctl.phase = .txNeed) :
    writeTxdr s v = .done (((s.setTxdata (dataByte v)).setIsr s.reg.isr.onTxWrite).setCtl
      { s.ctl with shift := dataByte v, phase := .txSend }) () := by
  simp [writeTxdr, h, hp]

theorem exec_wrTxdr (v : Word) (s : State) : exec (.wrTxdr v) s = .next (writeLine s (writeTxdr s v)) := rfl

/-- Settles O18: the access's effect or its mark is the whole of the row. -/
theorem txdrWrite : Obligations.TxdrWrite := by
  intro v s
  refine ⟨fun h => ?_, fun h hp => ?_, fun h hp => ?_⟩
  · rw [exec_wrTxdr, writeTxdr_of_highBits h]; rfl
  · rw [exec_wrTxdr, writeTxdr_of_not_txNeed h hp]; rfl
  · rw [exec_wrTxdr, writeTxdr_of_txNeed h hp]; rfl

end Sys2Proof.Machine
end

-- Family 10_state.md, part five: what is written to host memory, and where.
section
/-! The frame of a sequencer step (R28, R39), obligation O39, and from it that no burst with a good buffer writes the register block
(R130), obligation O53. -/

namespace Sys2Proof.Machine

/-! ### The frame of a sequencer step -/

/-- At the RDRX of a burst a byte is still to be read: in each place the controller can be there, `i + 1` is at most `n` (R97). -/
theorem burstIndex_lt {s : State} (hc : engineCoupling s) (hb : s.seq.status = .busy)
    (hm : currentMicro s = some (.rdRx .buffer)) : s.seq.i.toNat < s.seq.n.toNat := by
  obtain ⟨hcmd, hpc⟩ := currentMicro_eq_buffer hm
  have hread : readCoupling s := by
    simp only [engineCoupling, hb, hcmd] at hc
    exact hc.1.1
  simp only [readCoupling, hpc, readTotal, hcmd] at hread
  omega

theorem Stepped.isr_sticky_eq {s t : State} (h : Stepped s t) :
    t.reg.isr.nackf = s.reg.isr.nackf ∧ t.reg.isr.stopf = s.reg.isr.stopf := by
  cases h with
  | started v _ _ hq | startedBurst v _ _ hq =>
    rcases State.beginPhase_bus v hq with ⟨_, _, hisr⟩ | ⟨_, _, hisr⟩ <;> simp [hisr, Isr.onStart, Isr.onRepStart]
  | _ => exact ⟨rfl, rfl⟩

/-- A micro-step leaves every host byte as it was but the one the RDRX of a burst stores. -/
theorem Stepped.read_mem_eq {s t : State} (h : Stepped s t) {a : Nat}
    (ha : currentMicro s ≠ some (.rdRx .buffer) ∨ a ≠ s.seq.buf + s.seq.i.toNat) :
    Memory.read t.mem a = Memory.read s.mem a := by
  rcases h.mem_cases with hmem | ⟨hm, hmem⟩ <;> rw [hmem]
  exact Memory.read_write_other _ _ _ _ (ha.resolve_left (not_not_intro hm))

/-- Settles O39, from what each result of a micro-step leaves; the bound on `i` is the engine's coupling at the RDRX. -/
theorem sequencerFrame : Obligations.SequencerFrame := by
  intro s t h
  obtain ⟨hb, hs⟩ := sequencerStep_stepped h
  obtain ⟨hcmd, ha7, hreg, hval, hn, hbuf, hbuflen⟩ := hs.operands_eq
  obtain ⟨hnackf, hstopf⟩ := hs.isr_sticky_eq
  exact ⟨hcmd, ha7, hreg, hval, hn, hbuf, hbuflen, hs.params_eq, sequencerStep_env_eq h, hs.reply_eq, hs.rxdata_eq,
    hs.keepsHistory.upstream, hnackf, hstopf, fun _ => hs.read_mem_eq, fun hi => burstIndex_lt hi.coupling hb, hs.trace_cases⟩

/-! ### LP_BUFFER of the burst in progress -/

/-- The second half of `State.lpBuffers`: LP_BUFFER of the burst in progress, whose buffer is long enough (R106, R130). -/
def State.burstFits (s : State) : Prop :=
  s.seq.status = .busy → s.seq.cmd = .burstRead → s.seq.n.toNat ≤ s.seq.buflen ∧ lpBuffer s.params s.seq.buf s.seq.buflen

theorem unlessBusy_burstFits {s t : State} (hs : s.burstFits) (ht : t.burstFits) : (unlessBusy s t).burstFits := by
  unfold unlessBusy
  split
  · exact hs
  · exact ht

theorem admitSingleRead_burstFits {s : State} (hs : s.burstFits) (a7 : Addr7) (reg : Byte) :
    (admitSingleRead a7 reg s).burstFits :=
  unlessBusy_burstFits hs nofun

theorem admitSingleWrite_burstFits {s : State} (hs : s.burstFits) (a7 : Addr7) (reg val : Byte) :
    (admitSingleWrite a7 reg val s).burstFits :=
  unlessBusy_burstFits hs nofun

theorem admitReserved_burstFits {s : State} (hs : s.burstFits) : (admitReserved s).burstFits :=
  unlessBusy_burstFits hs nofun

theorem admitBurstRead_burstFits {s : State} (hs : s.burstFits) (a7 : Addr7) (reg n : Byte) {buf buflen : Nat}
    (hbuf : lpBuffer s.params buf buflen) : (admitBurstRead a7 reg n buf buflen s).burstFits := by
  refine unlessBusy_burstFits hs ?_
  split
  · exact nofun
  · split
    · exact nofun
    · exact fun _ _ => ⟨Nat.not_lt.1 ‹_›, hbuf⟩

/-- A descriptor is reserved or one of the shapes, a burst with the operands it came with (R57, R58). -/
theorem decodeDescriptor_cases (w : Word) (buf buflen : Nat) :
    decodeDescriptor w buf buflen = .reservedDescriptor ∨
    (∃ a7 reg, decodeDescriptor w buf buflen = .instr (.singleRead a7 reg)) ∨
    (∃ a7 reg val, decodeDescriptor w buf buflen = .instr (.singleWrite a7 reg val)) ∨
    ∃ a7 reg n, decodeDescriptor w buf buflen = .instr (.burstRead a7 reg n buf buflen) := by
  unfold decodeDescriptor
  repeat' split
  all_goals simp

/-- A command or a facade operation that meets LP_BUFFER leaves a burst in progress, the old one or the one it asks for, that meets
it. -/
theorem runRequest_burstFits {r : Request} {s t : State} (h : runRequest r s = .next t) (hr : requestLpBuffer s.params r)
    (hcommand : ∀ a, r ≠ .access a) (hs : s.burstFits) : t.burstFits := by
  cases r with
  | command w buf buflen =>
    simp only [runRequest, decode] at h
    rcases decodeDescriptor_cases w buf buflen with hd | ⟨a7, reg, hd⟩ | ⟨a7, reg, val, hd⟩ | ⟨a7, reg, n, hd⟩ <;>
      rw [hd] at h <;> cases h
    · exact admitReserved_burstFits hs
    · exact admitSingleRead_burstFits hs a7 reg
    · exact admitSingleWrite_burstFits hs a7 reg val
    · exact admitBurstRead_burstFits hs a7 reg n (hr ⟨a7, reg, n, hd⟩)
  | access a => exact absurd rfl (hcommand a)
  | read slave reg =>
    simp only [runRequest, decode, exec, execFacadeRead] at h
    split at h <;> cases h
    · exact admitSingleRead_burstFits hs _ _
    · exact hs
  | write slave reg val =>
    simp only [runRequest, decode, exec, execFacadeWrite] at h
    split at h <;> cases h
    · exact admitSingleWrite_burstFits hs _ _ _
    · exact hs
  | readAll slave range buf buflen =>
    simp only [runRequest, decode, exec, execFacadeReadAll] at h
    split at h
    · cases h
      exact hs
    · split at h <;> cases h
      · exact hs
      · exact admitBurstRead_burstFits hs _ _ _ hr

/-- The burst in progress keeps its operands. -/
theorem Stepped.burstFits {s t : State} (h : Stepped s t) (hb : s.seq.status = .busy) (hs : s.burstFits) : t.burstFits := by
  intro _ hcmd
  rw [h.seq_eq] at hcmd ⊢
  rw [h.params_eq]
  exact hs hb hcmd

theorem ControllerStepped.burstFits {s t : State} (h : ControllerStepped s t) (hs : s.burstFits) : t.burstFits := by
  unfold State.burstFits
  rw [h.seq_eq, h.params_eq]
  exact hs

/-! ### The register block -/

/-- A byte that a burst with a good buffer stores lies outside the register block: `i < n` and `n` is at most `buflen`. -/
theorem Stepped.blockUntouched {s t : State} (h : Stepped s t) (hb : s.seq.status = .busy) (hc : engineCoupling s)
    (hs : s.burstFits) (hblock : s.blockUntouched) : t.blockUntouched := by
  intro a ha
  rw [h.params_eq] at ha
  rw [h.read_mem_eq, hblock a ha]
  by_cases hm : currentMicro s = some (.rdRx .buffer)
  · obtain ⟨hfit, hbuf⟩ := hs hb (currentMicro_eq_buffer hm).1
    have hi := burstIndex_lt hc hb hm
    exact .inr fun heq => (hbuf a (by omega) (by omega)).2 ha
  · exact .inl hm

theorem State.blockUntouched.of_eq {s t : State} (h : s.blockUntouched) (hp : t.params = s.params) (hm : t.mem = s.mem) :
    t.blockUntouched := by
  unfold State.blockUntouched
  rwa [hp, hm]

theorem Moves.inbox_subset {s t : State} {e : Env} (he : e.inbox = s.env.inbox) (h : Moves s t e) :
    t.env.inbox ⊆ s.env.inbox := by
  rcases h.inbox_cases he with heq | ⟨x, hx, _⟩
  · exact heq ▸ List.Subset.refl _
  · exact hx ▸ List.subset_cons_self x _

/-- Settles O53: of each move, that the requests left and the burst in progress meet LP_BUFFER, and that no byte of the block is
written. -/
theorem stepKeepsRegisterBlock : Obligations.StepKeepsRegisterBlock := by
  intro s t hi hbuffers hblock h
  obtain ⟨hinbox, hfits⟩ := hbuffers
  obtain ⟨_, _, _, hparams, _⟩ := stepKeepsHistory s t h
  obtain ⟨_, _, e, he, hm⟩ := step_next_cases h
  refine ⟨⟨fun x hx => hparams ▸ hinbox x (hm.inbox_subset he hx), ?_⟩, ?_⟩
  · rcases hm with rfl | ⟨hb, hs⟩ | hc | ⟨x, rest, hx, _, hrun⟩
    · exact hfits
    · exact (sequencerStep_stepped hs).2.burstFits hb hfits
    · exact (controllerStep_stepped hc).burstFits hfits
    · have hmem : x ∈ s.env.inbox := hx ▸ List.mem_cons_self
      exact runRequest_burstFits hrun (hinbox x hmem) (hi.commands x hmem) hfits
  · rcases hm with rfl | ⟨hb, hs⟩ | hc | ⟨x, rest, hx, _, hrun⟩
    · exact hblock
    · exact (sequencerStep_stepped hs).2.blockUntouched hb hi.coupling hfits hblock
    · exact hblock.of_eq hparams (controllerStep_stepped hc).mem_eq
    · exact hblock.of_eq hparams (runRequest_next hrun).mem_eq

end Sys2Proof.Machine
end

-- Family 20_memory.md, part one: the CR2 words of the engine, the flags a WAIT tests, and bytes stored one after another.
section
/-! SUPPORT. The fields of an engine's CR2 word read back (R51, R94), the ISR bit of each flag a WAIT polls (R52), and host memory after
consecutive byte writes (R39, R98). -/

namespace Sys2Proof.Machine

/-! ### The engine's CR2 words (R51) -/

@[simp] theorem cr2Sadd7_cr2Value (a7 : Addr7) (rw : Dir) (n : Byte) (ae : Bool) : cr2Sadd7 (cr2Value a7 rw n ae) = a7 := by
  apply BitVec.eq_of_getLsbD_eq
  intro k hk
  interval_cases k <;> simp [cr2Sadd7, cr2Value]

@[simp] theorem cr2Nbytes_cr2Value (a7 : Addr7) (rw : Dir) (n : Byte) (ae : Bool) : cr2Nbytes (cr2Value a7 rw n ae) = n := by
  apply BitVec.eq_of_getLsbD_eq
  intro k hk
  interval_cases k <;> simp [cr2Nbytes, cr2Value]

@[simp] theorem cr2Autoend_cr2Value (a7 : Addr7) (rw : Dir) (n : Byte) (ae : Bool) : cr2Autoend (cr2Value a7 rw n ae) = ae := by
  simp [cr2Autoend, cr2Value]

@[simp] theorem cr2Dir_cr2Value (a7 : Addr7) (rw : Dir) (n : Byte) (ae : Bool) : cr2Dir (cr2Value a7 rw n ae) = rw := by
  cases rw <;> simp [cr2Dir, rdWrnBit, cr2Value, dirBit]

@[simp] theorem hasUnsupportedField_cr2Value (a7 : Addr7) (rw : Dir) (n : Byte) (ae : Bool) :
    hasUnsupportedField (cr2Value a7 rw n ae) = false := by
  have h : cr2Value a7 rw n ae &&& cr2Mbz = 0#32 := by
    apply BitVec.eq_of_getLsbD_eq
    intro k hk
    interval_cases k <;> simp [cr2Value, cr2Mbz]
  simp [hasUnsupportedField, h]

/-- After the address step (R77) the word of a read phase is R51's without START. -/
theorem clearStart_cr2Value_read (a7 : Addr7) (n : Byte) :
    clearStart (cr2Value a7 .read n true) = 0x02000400#32 ||| (n.setWidth 32 <<< 16) ||| (a7.setWidth 32 <<< 1) := by
  apply BitVec.eq_of_getLsbD_eq
  intro k hk
  interval_cases k <;> simp [clearStart, cr2Value, dirBit]

/-! ### The flag a WAIT polls (R52, R90) -/

@[simp] theorem flagSet_txis_word (f : Isr) : flagSet .txis f.word = f.txis := by
  simp [flagSet, flagBit, Isr.word]

@[simp] theorem flagSet_tc_word (f : Isr) : flagSet .tc f.word = f.tc := by
  simp [flagSet, flagBit, Isr.word]

@[simp] theorem flagSet_rxne_word (f : Isr) : flagSet .rxne f.word = f.rxne := by
  simp [flagSet, flagBit, Isr.word]

/-! ### Bytes stored one after another -/

/-- Host memory after the bytes `bs` were written from `a` on, each one atomic write (R42). -/
def Memory.writeBytes (m : List Host.Cell) (a : Nat) : List Byte → List Host.Cell
  | [] => m
  | b :: bs => Memory.writeBytes (Memory.write m a b) (a + 1) bs

theorem Memory.writeBytes_append_singleton (m : List Host.Cell) (a : Nat) (bs : List Byte) (b : Byte) :
    Memory.writeBytes m a (bs ++ [b]) = Memory.write (Memory.writeBytes m a bs) (a + bs.length) b := by
  induction bs generalizing m a with
  | nil => rfl
  | cons c bs ih => simpa [Memory.writeBytes, Nat.add_assoc, Nat.add_comm 1] using ih (Memory.write m a c) (a + 1)

theorem Memory.read_writeBytes_outside (m : List Host.Cell) (a : Nat) (bs : List Byte) {x : Nat}
    (hx : x < a ∨ a + bs.length ≤ x) : Memory.read (Memory.writeBytes m a bs) x = Memory.read m x := by
  induction bs generalizing m a with
  | nil => rfl
  | cons b bs ih =>
    rw [List.length_cons] at hx
    exact (ih (Memory.write m a b) (a + 1) (by omega)).trans (Memory.read_write_other m a x b (by omega))

theorem Memory.read_writeBytes_inside (m : List Host.Cell) (a : Nat) (bs : List Byte) {j : Nat} (hj : j < bs.length) :
    Memory.read (Memory.writeBytes m a bs) (a + j) = bs[j]? := by
  induction bs generalizing m a j with
  | nil => exact absurd hj (Nat.not_lt_zero j)
  | cons b bs ih =>
    cases j with
    | zero => exact (Memory.read_writeBytes_outside _ _ bs (.inl (by omega))).trans (Memory.read_write_same m a b)
    | succ j =>
      rw [show a + (j + 1) = a + 1 + j by omega]
      exact ih (Memory.write m a b) (a + 1) (Nat.lt_of_succ_lt_succ hj)

end Sys2Proof.Machine
end

-- Family 20_memory.md, part two: runs of a command that nobody breaks into.
section
/-! SUPPORT. Runs of a number of steps, and one rule per micro-step and per controller step: what `step` answers where a command is in
progress and the caller waits (R76, R88, R142). Where the controller has no step the sequencer takes its micro-step; where the
sequencer polls and the schedule has the controller next, the controller takes its own. -/

namespace Sys2Proof.Machine

/-! ### Runs -/

/-- `k` steps lead from `s` to `t`. -/
def Runs (k : Nat) (s t : State) : Prop := Host.Core.run core k s = .next t

theorem Runs.refl (s : State) : Runs 0 s s := rfl

theorem Runs.cons_iff {k : Nat} {s u : State} : Runs (k + 1) s u ↔ ∃ t, step s = .next t ∧ Runs k t u := by
  have hstep : core.step s = step s := rfl
  simp only [Runs, Host.Core.run, hstep]
  cases step s <;> simp

theorem Runs.cons {k : Nat} {s t u : State} (h : step s = .next t) (hr : Runs k t u) : Runs (k + 1) s u :=
  Runs.cons_iff.2 ⟨t, h, hr⟩

theorem Runs.trans {j k : Nat} {s t u : State} (h : Runs j s t) (hr : Runs k t u) : Runs (k + j) s u := by
  induction j generalizing s with
  | zero =>
    cases h
    exact hr
  | succ j ih =>
    obtain ⟨v, hv, hvt⟩ := Runs.cons_iff.1 h
    exact .cons hv (ih hvt)

theorem Runs.inv {k : Nat} {s t : State} (h : Runs k s t) (hi : s.Inv) : t.Inv := by
  induction k generalizing s with
  | zero =>
    cases h
    exact hi
  | succ k ih =>
    obtain ⟨u, hu, hr⟩ := Runs.cons_iff.1 h
    exact ih hr (stepKeepsInv s u hi hu)

/-! ### A command that nobody breaks into -/

/-- A command is in progress, the state carries no mark, and the caller waits with all it has still to present (R142). -/
structure State.Undisturbed (s : State) : Prop where
  unmarked : s.unmarked
  busy     : s.seq.status = .busy
  waits    : ∀ x ∈ s.env.inbox, x.wait = true

theorem urgent_of_waits {s : State} (h : ∀ x ∈ s.env.inbox, x.wait = true) : urgent s = false := by
  unfold urgent
  split
  · rfl
  · rename_i x rest hx
    simp [h x (hx ▸ List.mem_cons_self)]

namespace State.Undisturbed

variable {s t : State}

theorem of_eq (h : s.Undisturbed) (hf : t.faults = s.faults) (hr : t.refused = s.refused)
    (hb : t.seq.status = s.seq.status) (hx : t.env.inbox = s.env.inbox) : t.Undisturbed :=
  ⟨⟨hf.trans h.unmarked.1, hr.trans h.unmarked.2⟩, hb.trans h.busy, hx ▸ h.waits⟩

theorem sequencerStep_eq (h : s.Undisturbed) {m : Micro} (hm : currentMicro s = some m) : sequencerStep s = microStep m s := by
  simp [sequencerStep, h.busy, hm]

/-- Where the controller has no step, the machine's step is the micro-step at `seq.pc`. -/
theorem step_sequencer (h : s.Undisturbed) (hc : controllerStep s = none) {m : Micro} (hm : currentMicro s = some m)
    (hs : microStep m s = some t) : step s = .next t := by
  have hu := urgent_of_waits h.waits
  have hq : sequencerStep s = some t := (h.sequencerStep_eq hm).trans hs
  have hn : nextMover s = (some .sequencer, s) := by simp [nextMover, engineEnabled, hu, h.busy, hq, hc]
  rw [step_of_unmarked h.unmarked.1 h.unmarked.2, move, hn]
  exact engineMove_of_sequencerStep hu hq

/-- Where the sequencer polls and the schedule has the controller next, the machine's step is the controller's. -/
theorem step_controller (h : s.Undisturbed) {f : WaitFlag} (hm : currentMicro s = some (.wait f)) {sched : List Agent}
    (hsched : s.env.sched = .controller :: sched)
    (hc : controllerStep (s.setEnv { s.env with sched := sched }) = some t) : step s = .next t := by
  obtain ⟨b, hb⟩ := Option.isSome_iff_exists.1
    ((controllerStep_isSome_setEnv s { s.env with sched := sched }).symm.trans (Option.isSome_of_eq_some hc))
  rw [step_of_controller_scheduled h.unmarked.1 h.unmarked.2 (urgent_of_waits h.waits) (h.sequencerStep_eq hm) hb hsched]
  exact controllerMove_of_controllerStep hc

end State.Undisturbed

/-! ### The micro-steps -/

/-- What opens a phase on the bus (R66). -/
def State.opener (s : State) : BusEvent := if s.ctl.phase = .idle then .start else .repStart

/-- The START write of an engine's word from a quiescent controller (R51, R66). -/
def State.openPhase (s : State) (a7 : Addr7) (rw : Dir) (n : Byte) (ae : Bool) : State :=
  { s with
    reg := { s.reg with cr2 := cr2Value a7 rw n ae, isr := { s.reg.isr with busy := true, tc := false } }
    ctl := { phase := .addr, sadd7 := a7, rw := rw, rem := n, autoend := ae, shift := s.ctl.shift }
    trace := s.trace ++ [s.opener] }

/-- By R87 BUSY is set in TcHold already and TC is clear in Idle, so both openers leave the same flags. -/
theorem State.beginPhase_cr2Value {s : State} (hf : PhaseFlags s) (hq : s.quiescent = true) (a7 : Addr7) (rw : Dir) (n : Byte)
    (ae : Bool) : s.beginPhase (cr2Value a7 rw n ae) = s.openPhase a7 rw n ae := by
  obtain ⟨hbusy, htc, _, _, _, _⟩ := hf
  rcases (State.quiescent_iff s).1 hq with hp | hp
  · have htc' : s.reg.isr.tc = false := by simpa [hp] using htc
    have hisr : s.reg.isr.onStart = { s.reg.isr with busy := true, tc := false } := by simp [Isr.onStart, ← htc']
    simp [State.beginPhase, State.openPhase, State.opener, hp, hisr, State.setCr2, State.setCtl, State.emit, State.setIsr]
  · have hbusy' : s.reg.isr.busy = true := by simpa [hp] using hbusy
    have hisr : s.reg.isr.onRepStart = { s.reg.isr with busy := true, tc := false } := by simp [Isr.onRepStart, ← hbusy']
    simp [State.beginPhase, State.openPhase, State.opener, hp, hisr, State.setCr2, State.setCtl, State.emit, State.setIsr]

theorem writeCr2Start_cr2Value {s : State} (hf : PhaseFlags s) (hq : s.quiescent = true) (a7 : Addr7) (rw : Dir) {n : Byte}
    (hn : n ≠ 0#8) (ae : Bool) : writeCr2Start s (cr2Value a7 rw n ae) = .done (s.openPhase a7 rw n ae) () := by
  simp [writeCr2Start, hn, hq, State.beginPhase_cr2Value hf hq]

theorem controllerStep_of_quiescent {s : State} (hq : s.quiescent = true) : controllerStep s = none := by
  rcases (State.quiescent_iff s).1 hq with hp | hp <;> simp [controllerStep, hp]

namespace State.Undisturbed

variable {s : State} {a7 : Addr7} {rw : Dir} {n b : Byte} {ae : Bool} {f : WaitFlag} {acks : List Ack} {bytes : List Byte}
  {sched : List Agent} {k : Nat} (h : s.Undisturbed)
include h

/-- WRCR2 (R89). -/
theorem step_wrCr2 (hf : PhaseFlags s) (hq : s.quiescent = true)
    (hm : currentMicro s = some (.wrCr2 (cr2Value a7 rw n ae))) (hn : n ≠ 0#8) :
    step s = .next ((s.openPhase a7 rw n ae).setPc (s.seq.pc + 1)) :=
  h.step_sequencer (controllerStep_of_quiescent hq) hm
    (by simp [microStep, microWrCr2, writeCr2Start_cr2Value hf hq a7 rw hn ae])

/-- WRCR2 at pc 4 of a burst (R97). -/
theorem step_wrCr2Burst (hf : PhaseFlags s) (hq : s.quiescent = true)
    (hm : currentMicro s = some (.wrCr2Burst (cr2Value a7 rw n ae))) (hn : n ≠ 0#8) :
    step s = .next ((s.openPhase a7 rw n ae).setSeq { s.seq with i := 0#8, pc := s.seq.pc + 1 }) :=
  h.step_sequencer (controllerStep_of_quiescent hq) hm
    (by simp [microStep, microWrCr2Burst, writeCr2Start_cr2Value hf hq a7 rw hn ae, State.openPhase])

/-- WAIT on a flag that is set (R90). -/
theorem step_wait (hc : controllerStep s = none) (hm : currentMicro s = some (.wait f))
    (hf : flagSet f s.reg.isr.word = true) : step s = .next (s.setPc (s.seq.pc + 1)) :=
  h.step_sequencer hc hm (by simp [microStep, microWait, readIsr, hf])

/-- WRTX (R91). -/
theorem step_wrTx (hp : s.ctl.phase = .txNeed) (hm : currentMicro s = some (.wrTx b)) :
    step s = .next { s with
      reg := { s.reg with txdata := b, isr := s.reg.isr.onTxWrite }
      ctl := { s.ctl with shift := b, phase := .txSend }
      seq := { s.seq with pc := s.seq.pc + 1 } } :=
  h.step_sequencer (by simp [controllerStep, hp]) hm
    (by simp [microStep, microWrTx, writeTxdr_of_txNeed (txdrHighBits_dataWord b) hp]; rfl)

/-- RDRX of a burst (R92); `k` is where it goes on, which `i` decides. -/
theorem step_rdRxBuffer (hc : controllerStep s = none) (hm : currentMicro s = some (.rdRx .buffer))
    (hr : s.reg.isr.rxne = true)
    (hk : (if (s.seq.i + 1#8).toNat < s.seq.n.toNat then s.seq.pc - 1 else s.seq.pc + 1) = k) :
    step s = .next { s with
      reg := { s.reg with isr := s.reg.isr.onRxRead }
      mem := Memory.write s.mem (s.seq.buf + s.seq.i.toNat) s.reg.rxdata
      seq := { s.seq with i := s.seq.i + 1#8, pc := k } } := by
  subst hk
  exact h.step_sequencer hc hm (by simp [microStep, microRdRxBuffer, readRxdr, hr]; rfl)

/-- DONE (R93). -/
theorem step_done (hq : s.quiescent = true) (hm : currentMicro s = some .done) :
    step s = .next (s.setSeq { s.seq with status := .done }) :=
  h.step_sequencer (controllerStep_of_quiescent hq) hm (by simp [microStep, hq])

/-! ### The controller's steps, while the sequencer polls -/

variable (hm : currentMicro s = some (.wait f)) (hsched : s.env.sched = .controller :: sched)
include hm hsched

/-- The address step, acknowledged (R77). -/
theorem step_address (hp : s.ctl.phase = .addr) (ha : s.env.acks = .ack :: acks) :
    step s = .next { s with
      reg := { s.reg with cr2 := clearStart s.reg.cr2
                          isr := if s.ctl.rw = .write then s.reg.isr.onTxReady else s.reg.isr }
      ctl := { s.ctl with phase := if s.ctl.rw = .write then .txNeed else .rxRecv }
      trace := s.trace ++ [.addrByte s.ctl.sadd7 s.ctl.rw, .sAck]
      env := { s.env with acks := acks, sched := sched } } := by
  refine h.step_controller hm hsched ?_
  cases hw : s.ctl.rw <;>
    simp [controllerStep, hp, addressStep, State.drawAck, ha, State.addressAcked, hw, State.emit, State.setCr2, State.setEnv,
      State.setIsr, State.setPhase, State.setCtl]

/-- The transmit step of the last byte, acknowledged (R79). -/
theorem step_transmitLast (hp : s.ctl.phase = .txSend) (hrem : s.ctl.rem = 1#8) (ha : s.env.acks = .ack :: acks) :
    step s = .next { s with
      reg := { s.reg with isr := s.reg.isr.onShift }
      ctl := { s.ctl with shift := s.reg.txdata, rem := 0#8, phase := .endPhase }
      trace := s.trace ++ [.mWrite s.reg.txdata, .sAck]
      env := { s.env with acks := acks, sched := sched } } := by
  refine h.step_controller hm hsched ?_
  simp [controllerStep, hp, transmitStep, State.drawAck, ha, State.byteAcked, hrem, State.emit, State.setEnv, State.setIsr,
    State.setCtl]

/-- The receive step of a byte that is not the last (R80). -/
theorem step_receiveMore (hp : s.ctl.phase = .rxRecv) (hr : s.reg.isr.rxne = false) (hrem : s.ctl.rem ≠ 1#8)
    (hb : s.env.bytes = b :: bytes) :
    step s = .next { s with
      reg := { s.reg with rxdata := b, isr := s.reg.isr.onReceive }
      ctl := { s.ctl with rem := s.ctl.rem - 1#8 }
      trace := s.trace ++ [.sData b, .mAck]
      env := { s.env with bytes := bytes, sched := sched } } := by
  have hleft : s.ctl.rem - 1#8 ≠ 0#8 := by bv_omega
  refine h.step_controller hm hsched ?_
  simp [controllerStep, hp, hr, receiveStep, State.drawByte, hb, hleft, State.emit, State.setEnv, State.setIsr, State.setRxdata,
    State.setCtl]

/-- The receive step of the last byte (R80). -/
theorem step_receiveLast (hp : s.ctl.phase = .rxRecv) (hr : s.reg.isr.rxne = false) (hrem : s.ctl.rem = 1#8)
    (hb : s.env.bytes = b :: bytes) :
    step s = .next { s with
      reg := { s.reg with rxdata := b, isr := s.reg.isr.onReceive }
      ctl := { s.ctl with rem := 0#8, phase := .endPhase }
      trace := s.trace ++ [.sData b, .mNack]
      env := { s.env with bytes := bytes, sched := sched } } := by
  refine h.step_controller hm hsched ?_
  simp [controllerStep, hp, hr, receiveStep, State.drawByte, hb, hrem, State.emit, State.setEnv, State.setIsr, State.setRxdata,
    State.setCtl]

/-- The end step of a phase with autoend (R82). -/
theorem step_endStop (hp : s.ctl.phase = .endPhase) (ha : s.ctl.autoend = true) :
    step s = .next { s with
      reg := { s.reg with isr := s.reg.isr.onStop }
      ctl := { s.ctl with phase := .idle }
      trace := s.trace ++ [.stop]
      env := { s.env with sched := sched } } := by
  refine h.step_controller hm hsched ?_
  simp [controllerStep, hp, endStep, ha, State.emit, State.setEnv, State.setIsr, State.setPhase, State.setCtl]

/-- The end step of a phase without autoend (R83). -/
theorem step_endHold (hp : s.ctl.phase = .endPhase) (ha : s.ctl.autoend = false) :
    step s = .next { s with
      reg := { s.reg with isr := s.reg.isr.onComplete }
      ctl := { s.ctl with phase := .tcHold }
      env := { s.env with sched := sched } } := by
  refine h.step_controller hm hsched ?_
  simp [controllerStep, hp, endStep, ha, State.setEnv, State.setIsr, State.setPhase, State.setCtl]

end State.Undisturbed

end Sys2Proof.Machine
end

-- Family 20_memory.md, part three: a BURST_READ from admission to Done.
section
/-! The run of a BURST_READ (R97) phase by phase: admission, the write phase that sends the sub-address (the same in SINGLE_READ), the
opening of the read phase, the loop over all bytes but the last, and the last byte with the STOP; obligation O56 puts them together. -/

namespace Sys2Proof.Machine

/-! ### The programs -/

theorem currentMicro_of_burst {s : State} {m : Micro} (hcmd : s.seq.cmd = .burstRead)
    (hm : ([.wrCr2 (cr2Value s.seq.a7 .write 1#8 false), .wait .txis, .wrTx (subAddress s.seq.cmd s.seq.reg), .wait .tc,
      .wrCr2Burst (cr2Value s.seq.a7 .read s.seq.n true), .wait .rxne, .rdRx .buffer, .done] : List Micro)[s.seq.pc]? = some m) :
    currentMicro s = some m := by
  simpa only [currentMicro, program, hcmd] using hm

/-- The two reads begin alike (R96, R97). -/
theorem currentMicro_of_read {s : State} {m : Micro} (hcmd : s.seq.cmd ≠ .singleWrite)
    (hm : ([.wrCr2 (cr2Value s.seq.a7 .write 1#8 false), .wait .txis, .wrTx (subAddress s.seq.cmd s.seq.reg), .wait .tc] :
      List Micro)[s.seq.pc]? = some m) : currentMicro s = some m := by
  obtain ⟨hpc, _⟩ := List.getElem?_eq_some_iff.1 hm
  unfold currentMicro program
  split
  · exact absurd ‹_› hcmd
  · exact (List.getElem?_append_left (l₂ := [_, _, _, _]) hpc).trans hm
  · exact (List.getElem?_append_left (l₂ := [_, _, _, _]) hpc).trans hm

/-! ### The write phase of a read -/

/-- `s` after the write phase of a read, which sent `sub` (R96, R97): the bus is held. -/
def State.subAddressed (s : State) (a7 : Addr7) (sub : Byte) (acks : List Ack) (sched : List Agent) : State :=
  { s with
    reg := { s.reg with cr2 := clearStart (cr2Value a7 .write 1#8 false)
                        isr := { s.reg.isr with txe := true, txis := false, tc := true, busy := true }
                        txdata := sub }
    ctl := { phase := .tcHold, sadd7 := a7, rw := .write, rem := 0#8, autoend := false, shift := sub }
    seq := { s.seq with pc := 4 }
    trace := s.trace ++ [s.opener] ++ [.addrByte a7 .write, .sAck] ++ [.mWrite sub, .sAck]
    env := { s.env with acks := acks, sched := sched } }

open State.Undisturbed in
/-- The micro-steps at pc 0 to 3, with the controller's address, transmit and end steps among them. -/
theorem State.Undisturbed.subAddress_runs {s : State} (h : s.Undisturbed) (hf : PhaseFlags s) (hq : s.quiescent = true)
    (hcmd : s.seq.cmd ≠ .singleWrite) (hpc : s.seq.pc = 0) {acks : List Ack} {sched : List Agent}
    (hacks : s.env.acks = .ack :: .ack :: acks) (hsched : s.env.sched = .controller :: .controller :: .controller :: sched) :
    Runs 7 s (s.subAddressed s.seq.a7 (subAddress s.seq.cmd s.seq.reg) acks sched) := by
  refine .cons (h.step_wrCr2 hf hq (currentMicro_of_read hcmd (by rw [hpc]; rfl)) (by decide)) ?_
  rw [hpc]
  refine .cons (step_address (f := .txis) (h.of_eq rfl rfl rfl rfl) (currentMicro_of_read hcmd rfl) hsched rfl hacks) ?_
  refine .cons (step_wait (f := .txis) (h.of_eq rfl rfl rfl rfl) rfl (currentMicro_of_read hcmd rfl) (flagSet_txis_word _)) ?_
  refine .cons (step_wrTx (h.of_eq rfl rfl rfl rfl) rfl (currentMicro_of_read hcmd rfl)) ?_
  refine .cons (step_transmitLast (f := .tc) (h.of_eq rfl rfl rfl rfl) (currentMicro_of_read hcmd rfl) rfl rfl rfl rfl) ?_
  refine .cons (step_endHold (f := .tc) (h.of_eq rfl rfl rfl rfl) (currentMicro_of_read hcmd rfl) rfl rfl rfl) ?_
  refine .cons (step_wait (f := .tc) (h.of_eq rfl rfl rfl rfl) rfl (currentMicro_of_read hcmd rfl) (flagSet_tc_word _)) ?_
  exact Runs.refl _

theorem State.Undisturbed.subAddressed {s : State} {a7 : Addr7} {sub : Byte} {acks : List Ack} {sched : List Agent}
    (h : s.Undisturbed) : (s.subAddressed a7 sub acks sched).Undisturbed :=
  h.of_eq rfl rfl rfl rfl

/-! ### The read phase of a burst -/

/-- `s` after the opening of a burst's read phase (R97): the controller is to receive `n` bytes. -/
def State.readOpened (s : State) (a7 : Addr7) (n : Byte) (acks : List Ack) (sched : List Agent) : State :=
  { s with
    reg := { s.reg with cr2 := clearStart (cr2Value a7 .read n true), isr := { s.reg.isr with busy := true, tc := false } }
    ctl := { phase := .rxRecv, sadd7 := a7, rw := .read, rem := n, autoend := true, shift := s.ctl.shift }
    seq := { s.seq with i := 0#8, pc := 5 }
    trace := s.trace ++ [s.opener] ++ [.addrByte a7 .read, .sAck]
    env := { s.env with acks := acks, sched := sched } }

/-- A burst polls for the first of the `k` bytes that are still to come (R97). -/
structure State.AwaitsBytes (s : State) (k : Nat) : Prop where
  undisturbed : s.Undisturbed
  cmd         : s.seq.cmd = .burstRead
  pc          : s.seq.pc = 5
  phase       : s.ctl.phase = .rxRecv
  autoend     : s.ctl.autoend = true
  empty       : s.reg.isr.rxne = false
  rem         : s.ctl.rem.toNat = k
  index       : s.seq.i.toNat + k = s.seq.n.toNat

open State.Undisturbed in
/-- The repeated START at pc 4 and the address step; after them all `n` bytes are still to come. -/
theorem State.Undisturbed.openRead_runs {s : State} {acks : List Ack} {sched : List Agent} (h : s.Undisturbed)
    (hf : PhaseFlags s) (hq : s.quiescent = true) (hr : s.reg.isr.rxne = false) (hcmd : s.seq.cmd = .burstRead)
    (hpc : s.seq.pc = 4) (hn : s.seq.n ≠ 0#8) (hacks : s.env.acks = .ack :: acks) (hsched : s.env.sched = .controller :: sched) :
    Runs 2 s (s.readOpened s.seq.a7 s.seq.n acks sched) ∧
      (s.readOpened s.seq.a7 s.seq.n acks sched).AwaitsBytes s.seq.n.toNat := by
  refine ⟨?_, h.of_eq rfl rfl rfl rfl, hcmd, rfl, rfl, rfl, hr, rfl, Nat.zero_add _⟩
  refine .cons (h.step_wrCr2Burst hf hq (currentMicro_of_burst hcmd (by rw [hpc]; rfl)) hn) ?_
  rw [hpc]
  refine .cons (step_address (f := .rxne) (h.of_eq rfl rfl rfl rfl) (currentMicro_of_burst hcmd rfl) hsched rfl hacks) ?_
  exact Runs.refl _

/-- `s` after one byte of a burst that is not its last: received, and stored at `buf + i` (R80, R92). -/
def State.byteStored (s : State) (b : Byte) (bytes : List Byte) (sched : List Agent) : State :=
  { s with
    reg := { s.reg with rxdata := b, isr := { s.reg.isr with rxne := false } }
    ctl := { s.ctl with rem := s.ctl.rem - 1#8 }
    mem := Memory.write s.mem (s.seq.buf + s.seq.i.toNat) b
    seq := { s.seq with i := s.seq.i + 1#8, pc := 5 }
    trace := s.trace ++ [.sData b, .mAck]
    env := { s.env with bytes := bytes, sched := sched } }

/-- `s` after the last byte of a burst and the STOP (R80, R82, R92, R93). -/
def State.burstEnded (s : State) (last : Byte) (bytes : List Byte) (sched : List Agent) : State :=
  { s with
    reg := { s.reg with rxdata := last, isr := { s.reg.isr with rxne := false, stopf := true, busy := false } }
    ctl := { s.ctl with rem := 0#8, phase := .idle }
    mem := Memory.write s.mem (s.seq.buf + s.seq.i.toNat) last
    seq := { s.seq with i := s.seq.i + 1#8, pc := 7, status := .done }
    trace := s.trace ++ [.sData last, .mNack] ++ [.stop]
    env := { s.env with bytes := bytes, sched := sched } }

namespace State.AwaitsBytes

variable {s : State} {b : Byte} {bytes : List Byte} {sched : List Agent} {k : Nat}

theorem index_succ_toNat (h : s.AwaitsBytes (k + 1)) : (s.seq.i + 1#8).toNat = s.seq.i.toNat + 1 := by
  have hindex := h.index
  bv_omega

theorem byteStored (h : s.AwaitsBytes (k + 2)) : (s.byteStored b bytes sched).AwaitsBytes (k + 1) := by
  obtain ⟨hu, hcmd, _, hp, ha, _, hrem, hindex⟩ := h
  refine ⟨hu.of_eq rfl rfl rfl rfl, hcmd, rfl, hp, ha, rfl, ?_, ?_⟩
  · show (s.ctl.rem - 1#8).toNat = k + 1
    bv_omega
  · show (s.seq.i + 1#8).toNat + (k + 1) = s.seq.n.toNat
    bv_omega

open State.Undisturbed in
/-- One round of the loop: the controller receives, the sequencer's WAIT passes, its RDRX stores and goes back. -/
theorem byteStored_runs (h : s.AwaitsBytes (k + 2)) (hbytes : s.env.bytes = b :: bytes)
    (hsched : s.env.sched = .controller :: sched) : Runs 3 s (s.byteStored b bytes sched) := by
  have hsucc := h.index_succ_toNat
  obtain ⟨hu, hcmd, hpc, hp, ha, he, hrem, hindex⟩ := h
  have hmore : (s.seq.i + 1#8).toNat < s.seq.n.toNat := by omega
  have hfull : ∀ t : State, t.ctl.phase = .rxRecv → t.reg.isr.rxne = true → controllerStep t = none := by
    intro t htp htr
    simp [controllerStep, htp, htr]
  refine .cons (hu.step_receiveMore (currentMicro_of_burst hcmd (by rw [hpc]; rfl)) hsched hp he
    (fun h1 => by simp [h1] at hrem) hbytes) ?_
  refine .cons (step_wait (f := .rxne) (hu.of_eq rfl rfl rfl rfl) (hfull _ hp rfl)
    (currentMicro_of_burst hcmd (by rw [hpc]; rfl)) (flagSet_rxne_word _)) ?_
  rw [hpc]
  refine .cons (step_rdRxBuffer (hu.of_eq rfl rfl rfl rfl) (hfull _ hp rfl) (currentMicro_of_burst hcmd rfl) rfl
    (if_pos hmore)) ?_
  exact Runs.refl _

/-- `t` is `s` after the bytes `bs` of a burst, of which the last is not the burst's last. -/
structure Stored (s : State) (bs : List Byte) (t : State) : Prop where
  index : t.seq.i.toNat = s.seq.i.toNat + bs.length
  buf   : t.seq.buf = s.seq.buf
  cr2   : t.reg.cr2 = s.reg.cr2
  mem   : t.mem = Memory.writeBytes s.mem (s.seq.buf + s.seq.i.toNat) bs
  trace : t.trace = s.trace ++ bs.flatMap fun b => [BusEvent.sData b, .mAck]

/-- The loop of R97 over every byte but the last. -/
theorem stored_runs {bs : List Byte} (h : s.AwaitsBytes k) (hk : bs.length + 1 = k) (hbytes : s.env.bytes = bs ++ bytes)
    (hsched : s.env.sched = List.replicate bs.length .controller ++ sched) :
    ∃ t, Runs (3 * bs.length) s t ∧ t.AwaitsBytes 1 ∧ Stored s bs t ∧ t.env.bytes = bytes ∧ t.env.sched = sched := by
  subst hk
  induction bs generalizing s with
  | nil => exact ⟨s, .refl s, h, ⟨rfl, rfl, rfl, rfl, by simp⟩, hbytes, hsched⟩
  | cons b bs ih =>
    have hsucc := h.index_succ_toNat
    obtain ⟨t, hrun, hawaits, ⟨hindex, hbuf, hcr2, hmem, htrace⟩, hb, hs⟩ :=
      ih (s := s.byteStored b (bs ++ bytes) (List.replicate bs.length .controller ++ sched)) rfl rfl h.byteStored
    refine ⟨t, (h.byteStored_runs hbytes hsched).trans hrun, hawaits, ⟨?_, hbuf, hcr2, ?_, ?_⟩, hb, hs⟩
    · rw [hindex, List.length_cons]
      show (s.seq.i + 1#8).toNat + _ = _
      omega
    · rw [hmem]
      show Memory.writeBytes _ (s.seq.buf + (s.seq.i + 1#8).toNat) bs = _
      rw [hsucc]
      rfl
    · rw [htrace, List.flatMap_cons, ← List.append_assoc]
      rfl

open State.Undisturbed in
/-- The last byte: the controller receives it and stops, the sequencer stores it and leaves the loop for DONE. -/
theorem burstEnded_runs (h : s.AwaitsBytes 1) (hbytes : s.env.bytes = b :: bytes)
    (hsched : s.env.sched = .controller :: .controller :: sched) : Runs 5 s (s.burstEnded b bytes sched) := by
  have hsucc := h.index_succ_toNat
  obtain ⟨hu, hcmd, hpc, hp, ha, he, hrem, hindex⟩ := h
  have hlast : ¬ (s.seq.i + 1#8).toNat < s.seq.n.toNat := by omega
  refine .cons (hu.step_receiveLast (currentMicro_of_burst hcmd (by rw [hpc]; rfl)) hsched hp he
    (BitVec.eq_of_toNat_eq hrem) hbytes) ?_
  refine .cons (step_endStop (f := .rxne) (hu.of_eq rfl rfl rfl rfl) (currentMicro_of_burst hcmd (by rw [hpc]; rfl)) rfl rfl ha) ?_
  refine .cons (step_wait (f := .rxne) (hu.of_eq rfl rfl rfl rfl) rfl
    (currentMicro_of_burst hcmd (by rw [hpc]; rfl)) (flagSet_rxne_word _)) ?_
  rw [hpc]
  refine .cons (step_rdRxBuffer (hu.of_eq rfl rfl rfl rfl) rfl (currentMicro_of_burst hcmd rfl) rfl (if_neg hlast)) ?_
  refine .cons (step_done (hu.of_eq rfl rfl rfl rfl) rfl (currentMicro_of_burst hcmd rfl)) ?_
  exact Runs.refl _

end State.AwaitsBytes

/-! ### Admission, and the whole run -/

/-- A command or a facade operation that the caller presents at once runs, a command in progress or not (R113). -/
theorem step_placeRequest {s : State} {r : Request} (hs : s.unmarked) (hr : isAccess r = false) :
    step (s.placeRequest r) = runRequest r s := by
  obtain ⟨hf, hrefused⟩ := hs
  have hurgent : urgent (s.placeRequest r) = true :=
    (urgent_iff _).2 ⟨⟨r, false⟩, s.env.inbox, rfl, rfl, .inl hr⟩
  rw [step_of_unmarked (s := s.placeRequest r) hf hrefused]
  simp only [move, nextMover, engineMove, hurgent, if_true]
  rfl

theorem runRequest_encode {i : Instr} (hwf : i.wf = true) (s : State) :
    runRequest (encode s.params.base i) s = exec i s := by
  rw [runRequest, decodeEncodeAgree s.params.base i hwf]

/-- A burst that can be admitted is (R105 to R107). -/
theorem exec_burstRead_admitted {s : State} (hb : s.seq.status ≠ .busy) (a7 : Addr7) (reg : Byte) {n : Byte} (hn : n ≠ 0#8)
    (buf : Nat) {buflen : Nat} (hlen : n.toNat ≤ buflen) :
    exec (.burstRead a7 reg n buf buflen) s =
      .next (s.setSeq { admitted s.seq .burstRead a7 reg with n := n, buf := buf, buflen := buflen }) := by
  simp [exec, execBurstRead, admitBurstRead, unlessBusy, hb, hn, Nat.not_lt.2 hlen]

/-- Between commands the controller is quiescent and RXDR is empty (R117, R140). -/
theorem engineCoupling_of_not_busy {s : State} (hc : engineCoupling s) (hb : s.seq.status ≠ .busy) :
    s.quiescent = true ∧ s.reg.isr.rxne = false := by
  unfold engineCoupling at hc
  split at hc
  · exact absurd ‹_› hb
  all_goals exact hc

/-- The schedule of a burst of `k + 1` bytes, cut at its phases: the write phase, the read phase's address, the loop, the end. -/
theorem controllerFirst_split (k : Nat) (sched : List Agent) :
    List.replicate (k + 1 + 5) Agent.controller ++ sched =
      .controller :: .controller :: .controller :: .controller ::
        (List.replicate k .controller ++ .controller :: .controller :: sched) := by
  rw [show k + 1 + 5 = 4 + (k + 2) by omega, List.replicate_add, List.replicate_add, List.append_assoc, List.append_assoc]
  rfl

/-- A burst admitted to a quiescent controller runs to its end, phase by phase, if the slave and the schedule are as R97 has them. -/
theorem State.Undisturbed.burst_runs {s : State} {bs : List Byte} {last : Byte} {acks : List Ack} {bytes : List Byte}
    {sched : List Agent} (h : s.Undisturbed) (hi : s.Inv) (hq : s.quiescent = true) (hr : s.reg.isr.rxne = false)
    (hcmd : s.seq.cmd = .burstRead) (hpc : s.seq.pc = 0) (hn : (bs ++ [last]).length = s.seq.n.toNat)
    (hacks : s.env.acks = List.replicate 3 .ack ++ acks) (hbytes : s.env.bytes = bs ++ last :: bytes)
    (hsched : s.env.sched = List.replicate (s.seq.n.toNat + 5) .controller ++ sched) :
    ∃ k t, Runs k s t ∧ t.unmarked ∧ t.seq.status = .done ∧ t.ctl.phase = .idle ∧ t.reg.isr.rxne = false ∧
      t.reg.cr2 = clearStart (cr2Value s.seq.a7 .read s.seq.n true) ∧
      t.mem = Memory.writeBytes s.mem s.seq.buf (bs ++ [last]) ∧
      t.trace = s.trace ++ [s.opener, .addrByte s.seq.a7 .write, .sAck, .mWrite (subAddress s.seq.cmd s.seq.reg), .sAck,
          .repStart, .addrByte s.seq.a7 .read, .sAck]
        ++ bs.flatMap (fun b => [BusEvent.sData b, .mAck]) ++ [BusEvent.sData last, .mNack, .stop] := by
  rw [List.length_append, List.length_singleton] at hn
  rw [← hn, controllerFirst_split] at hsched
  have hn0 : s.seq.n ≠ 0#8 := fun h0 => by simp [h0] at hn
  have hwrite := h.subAddress_runs hi.flags hq (by simp [hcmd]) hpc hacks hsched
  obtain ⟨hopen, hopened⟩ := h.subAddressed.openRead_runs (hwrite.inv hi).flags rfl hr hcmd rfl hn0 rfl rfl
  obtain ⟨t, hloop, hawaits, hstored, hb, hs⟩ := hopened.stored_runs hn hbytes rfl
  have hend := hawaits.burstEnded_runs hb hs
  obtain ⟨hindex, hbuf, hcr2, hmem, htrace⟩ := hstored
  refine ⟨_, _, ((hwrite.trans hopen).trans hloop).trans hend, hawaits.undisturbed.unmarked, rfl, rfl, rfl, hcr2, ?_, ?_⟩
  · have hi0 : t.seq.i.toNat = bs.length := hindex.trans (Nat.zero_add _)
    show Memory.write t.mem (t.seq.buf + t.seq.i.toNat) last = _
    rw [Memory.writeBytes_append_singleton, hmem, hbuf, hi0]
    rfl
  · show t.trace ++ _ ++ _ = _
    rw [htrace]
    simp [State.readOpened, State.subAddressed, State.opener]

/-- Settles O56: admission, then the run of the admitted burst; LP_BUFFER and the other launch premises are not needed for it. -/
theorem burstReadRuns : Obligations.BurstReadRuns := by
  intro s a7 reg n buf buflen bs last acks bytes sched _ hi hwaits hrefused hidle hlen hbuflen _ hacks hbytes hsched
  obtain ⟨hinv, _, hfaults, hcoupling⟩ := hi
  obtain ⟨hq, hr⟩ := engineCoupling_of_not_busy hcoupling hidle
  have hn : n ≠ 0#8 := fun h0 => by simp [h0] at hlen
  have hadmit := (step_placeRequest (r := encode s.params.base (.burstRead a7 reg n buf buflen)) ⟨hfaults, hrefused⟩ rfl).trans
    ((runRequest_encode rfl s).trans (exec_burstRead_admitted hidle a7 reg hn buf hbuflen))
  have hburst : (s.setSeq { admitted s.seq .burstRead a7 reg with n := n, buf := buf, buflen := buflen }).Undisturbed :=
    ⟨⟨hfaults, hrefused⟩, rfl, hwaits⟩
  obtain ⟨k, t, hrun, ⟨htf, htr⟩, hdone, hphase, hrx, hcr2, hmem, htrace⟩ :=
    hburst.burst_runs (hinv.setSeq _) hq hr rfl rfl hlen hacks hbytes hsched
  refine ⟨k + 1, t, hrun.cons hadmit, hdone, hphase, hrx, hcr2.trans (clearStart_cr2Value_read a7 n), htf, htr,
    fun j hj => ?_, fun a ha => ?_, htrace⟩
  · rw [hmem]
    exact Memory.read_writeBytes_inside _ _ _ (hlen ▸ hj)
  · rw [hmem]
    exact Memory.read_writeBytes_outside _ _ _ (hlen ▸ ha)

end Sys2Proof.Machine
end

-- Family 30_encoding.md, part one: descriptors by their match and mask, and the encoder on what the decoder reads.
section
/-! A word is its six descriptor fields (R56), so R57's masks select fields; obligations O1, O2 and O4 from that. -/

namespace Sys2Proof

/-! ### A word by its fields (R56) -/

theorem ofBool_getLsbD_seven (w : Word) : BitVec.ofBool (w.getLsbD 7) = w.extractLsb' 7 1 := by
  apply BitVec.eq_of_getLsbD_eq
  simp

/-- The six fields of R56 side by side are the word. -/
theorem fields_append (w : Word) :
    w.extractLsb' 26 6 ++ descOp w ++ descArg w ++ descReg w ++ BitVec.ofBool (w.getLsbD 7) ++ descA7 w = w := by
  simp only [ofBool_getLsbD_seven, descOp, descArg, descReg, descA7]
  iterate 5 rw [BitVec.extractLsb'_append_extractLsb'_eq_extractLsb' (by rfl)]
  exact BitVec.extractLsb'_eq_self

theorem word_eq_iff_fields (v w : Word) :
    v = w ↔ v.extractLsb' 26 6 = w.extractLsb' 26 6 ∧ descOp v = descOp w ∧ descArg v = descArg w ∧ descReg v = descReg w ∧
      v.getLsbD 7 = w.getLsbD 7 ∧ descA7 v = descA7 w := by
  constructor
  · rintro rfl
    exact ⟨rfl, rfl, rfl, rfl, rfl, rfl⟩
  · rintro ⟨hhigh, hop, harg, hreg, hbit, ha7⟩
    rw [← fields_append v, ← fields_append w, hhigh, hop, harg, hreg, hbit, ha7]

theorem descReservedZero_iff (w : Word) : descReservedZero w = true ↔ w.extractLsb' 26 6 = 0#6 ∧ w.getLsbD 7 = false := by
  simp [descReservedZero]

/-- A word whose reserved bits are 0 is assembled from its other fields. -/
theorem descWord_fields {w : Word} (h : descReservedZero w = true) :
    descWord (descOp w) (descArg w) (descReg w) (descA7 w) = w := by
  obtain ⟨hhigh, hbit⟩ := (descReservedZero_iff w).1 h
  obtain ⟨hhigh', hbit'⟩ := (descReservedZero_iff _).1 (descReservedZero_descWord (descOp w) (descArg w) (descReg w) (descA7 w))
  exact (word_eq_iff_fields _ _).2 ⟨hhigh'.trans hhigh.symm, descOp_descWord .., descArg_descWord .., descReg_descWord ..,
    hbit'.trans hbit.symm, descA7_descWord ..⟩

/-! ### The masks (R57)

`BitVec.and_allOnes` at the widths of the fields, the ones written as the literals the masks evaluate to. -/

theorem and_six_ones (x : BitVec 6) : x &&& 63#6 = x := BitVec.and_allOnes
theorem and_two_ones (x : BitVec 2) : x &&& 3#2 = x := BitVec.and_allOnes
theorem and_eight_ones (x : BitVec 8) : x &&& 255#8 = x := BitVec.and_allOnes

/-- The mask of SINGLE_WRITE and BURST_READ selects OP and the reserved bits. -/
theorem and_opMask_eq_iff (w : Word) (op : BitVec 2) :
    w &&& 0xFF000080#32 = descWord op 0#8 0#8 0#7 ↔ descReservedZero w = true ∧ descOp w = op := by
  obtain ⟨hhigh, hbit⟩ := (descReservedZero_iff _).1 (descReservedZero_descWord op 0#8 0#8 0#7)
  rw [word_eq_iff_fields, hhigh, hbit, descOp_descWord, descArg_descWord, descReg_descWord, descA7_descWord,
    descReservedZero_iff]
  simp [descOp, descArg, descReg, descA7, BitVec.extractLsb'_and, and_six_ones, and_two_ones, and_left_comm, and_comm]

/-- The mask of SINGLE_READ selects ARG too. -/
theorem and_argMask_eq_iff (w : Word) :
    w &&& 0xFFFF0080#32 = 0x00000000#32 ↔ descReservedZero w = true ∧ descOp w = 0b00#2 ∧ descArg w = 0#8 := by
  rw [word_eq_iff_fields, descReservedZero_iff]
  simp [descOp, descArg, descReg, descA7, BitVec.extractLsb'_and, and_six_ones, and_two_ones, and_eight_ones,
    and_assoc, and_left_comm, and_comm]

theorem match_singleWrite_iff (w : Word) :
    w &&& 0xFF000080#32 = 0x01000000#32 ↔ descReservedZero w = true ∧ descOp w = 0b01#2 :=
  and_opMask_eq_iff w 0b01#2

theorem match_burstRead_iff (w : Word) :
    w &&& 0xFF000080#32 = 0x02000000#32 ↔ descReservedZero w = true ∧ descOp w = 0b10#2 :=
  and_opMask_eq_iff w 0b10#2

/-- Settles O2: the match of a shape under its mask is the branch of `decodeDescriptor` that answers it. -/
theorem descriptorDecode : Obligations.DescriptorDecode := by
  intro w buf buflen
  simp only [ne_eq, and_argMask_eq_iff, match_singleWrite_iff, match_burstRead_iff]
  refine ⟨fun ⟨hz, hop, harg⟩ => ?_, fun ⟨hz, hop⟩ => ?_, fun ⟨hz, hop⟩ => ?_, fun hread hwrite hburst => ?_⟩
  · simp [decodeDescriptor, hz, hop, harg, descA7, descReg]
  · simp [decodeDescriptor, hz, hop, descA7, descReg, descArg]
  · simp [decodeDescriptor, hz, hop, descA7, descReg, descArg]
  · by_cases hz : descReservedZero w = true
    · simp_all [decodeDescriptor]
    · simp [decodeDescriptor, hz]

/-! ### What the decoder reads, encoded again -/

/-- A descriptor that decodes to a shape is that shape's word (R56). -/
theorem decodeDescriptor_eq_instr {w : Word} {buf buflen : Nat} {i : Instr} (h : decodeDescriptor w buf buflen = .instr i) :
    (∃ a7 reg, i = .singleRead a7 reg ∧ w = descWord 0b00#2 0#8 reg a7) ∨
    (∃ a7 reg val, i = .singleWrite a7 reg val ∧ w = descWord 0b01#2 val reg a7) ∨
    ∃ a7 reg n, i = .burstRead a7 reg n buf buflen ∧ w = descWord 0b10#2 n reg a7 := by
  unfold decodeDescriptor at h
  split_ifs at h with hz hop harg hwrite hburst <;> cases h
  · exact .inl ⟨_, _, rfl, by rw [← hop, ← harg, descWord_fields hz]⟩
  · exact .inr (.inl ⟨_, _, _, rfl, by rw [← hwrite, descWord_fields hz]⟩)
  · exact .inr (.inr ⟨_, _, _, rfl, by rw [← hburst, descWord_fields hz]⟩)

theorem encode_decodeCr2Write (base : Nat) (v : Word) : encode base (decodeCr2Write v) = regWriteAt base offCr2 v := by
  unfold decodeCr2Write
  split
  · split <;> rfl
  · rfl

theorem encode_of_decodeRegRead {off : Nat} {i : Instr} (h : decodeRegRead off = .instr i) (base : Nat) :
    encode base i = regReadAt base off := by
  unfold decodeRegRead at h
  split_ifs at h with hoff hoff hoff hoff <;> cases h <;> rw [hoff] <;> rfl

theorem encode_of_decodeRegWrite {off : Nat} {v : Word} {i : Instr} (h : decodeRegWrite off v = .instr i) (base : Nat) :
    encode base i = regWriteAt base off v := by
  unfold decodeRegWrite at h
  split_ifs at h with hcr2 htxdr
  · cases h
    rw [hcr2, encode_decodeCr2Write]
  · cases h
    rw [htxdr, encode]

/-- An access that decodes to a row is 32 bits wide and lies at an offset from the base (R65). -/
theorem encode_of_decodeAccess {base : Nat} {a : RegAccess} {i : Instr} (h : decodeAccess base a = .instr i) :
    encode base i = .access a := by
  obtain ⟨addr, width, kind⟩ := a
  unfold decodeAccess at h
  split_ifs at h with hwidth hbase
  subst hwidth
  have haddr : base + (addr - base) = addr := Nat.add_sub_cancel' hbase
  cases kind with
  | read => rw [encode_of_decodeRegRead h, regReadAt, haddr]
  | write v => rw [encode_of_decodeRegWrite h, regWriteAt, haddr]

/-- Settles O4, by the kind of the request. -/
theorem encodeDecodeAgree : Obligations.EncodeDecodeAgree := by
  intro base r i h
  cases r with
  | command w buf buflen =>
    rcases decodeDescriptor_eq_instr h with ⟨a7, reg, rfl, rfl⟩ | ⟨a7, reg, val, rfl, rfl⟩ | ⟨a7, reg, n, rfl, rfl⟩
    · exact .inl ⟨.inl ⟨a7, reg, rfl⟩, rfl⟩
    · exact .inl ⟨.inr ⟨a7, reg, val, rfl⟩, rfl⟩
    · exact .inr ⟨⟨a7, reg, n, rfl⟩, rfl⟩
  | access a => exact encode_of_decodeAccess h
  | read slave reg | write slave reg val | readAll slave range buf buflen =>
    cases h
    rfl

/-! ### The words of 95 L2.1 -/

/-- Settles O1: closed words, decoded. -/
theorem specWordsDecode : Obligations.SpecWordsDecode := by
  unfold Obligations.SpecWordsDecode
  decide

end Sys2Proof
end

-- Family 30_encoding.md, part two: the assembled words and bytes.
section
/-! The engine's CR2 word (R51), the ISR word (R52), the bus bytes (R54, R55) and the programs made of them (R95 to R97): obligations
O6, O7, O8 and O34. -/

namespace Sys2Proof.Machine

/-! ### CR2 words (R51) -/

theorem word_or_right_comm (x y z : Word) : x ||| y ||| z = x ||| z ||| y := by
  rw [BitVec.or_assoc, BitVec.or_comm y, BitVec.or_assoc]

/-- The fixed bits of a use together, and after them the operands that vary. -/
theorem cr2Value_eq (a7 : Addr7) (rw : Dir) (n : Byte) (ae : Bool) :
    cr2Value a7 rw n ae =
      ((BitVec.ofBool ae).setWidth 32 <<< 25 ||| 1#32 <<< 13 ||| (dirBit rw).setWidth 32 <<< 10) ||| (n.setWidth 32 <<< 16) |||
        (a7.setWidth 32 <<< 1) := by
  rw [cr2Value, word_or_right_comm _ (n.setWidth 32 <<< 16), word_or_right_comm _ (n.setWidth 32 <<< 16)]

theorem cr2Value_write (a7 : Addr7) (n : Byte) :
    cr2Value a7 .write n false = 0x00002000#32 ||| (n.setWidth 32 <<< 16) ||| (a7.setWidth 32 <<< 1) :=
  cr2Value_eq a7 .write n false

theorem cr2Value_read (a7 : Addr7) (n : Byte) :
    cr2Value a7 .read n true = 0x02002400#32 ||| (n.setWidth 32 <<< 16) ||| (a7.setWidth 32 <<< 1) :=
  cr2Value_eq a7 .read n true

theorem cr2Value_write_one (a7 : Addr7) : cr2Value a7 .write 1#8 false = 0x00012000#32 ||| (a7.setWidth 32 <<< 1) :=
  cr2Value_write a7 1#8

theorem cr2Value_write_two (a7 : Addr7) : cr2Value a7 .write 2#8 false = 0x00022000#32 ||| (a7.setWidth 32 <<< 1) :=
  cr2Value_write a7 2#8

theorem cr2Value_read_one (a7 : Addr7) : cr2Value a7 .read 1#8 true = 0x02012400#32 ||| (a7.setWidth 32 <<< 1) :=
  cr2Value_read a7 1#8

/-- Settles O6: each field reads back, and the four uses are the words above. -/
theorem cr2ValueAssembly : Obligations.Cr2ValueAssembly := by
  intro a7 rw n ae
  have hmbz : cr2Value a7 rw n ae &&& 0xFD00DB01#32 = 0#32 :=
    and_mbz_of_supported (hasUnsupportedField_cr2Value a7 rw n ae)
  exact ⟨cr2Sadd7_cr2Value a7 rw n ae, cr2Dir_cr2Value a7 rw n ae, cr2Nbytes_cr2Value a7 rw n ae,
    cr2Autoend_cr2Value a7 rw n ae, startBit_cr2Value a7 rw n ae, hmbz, cr2Value_write_one a7, cr2Value_write_two a7,
    cr2Value_read_one a7, cr2Value_read a7 n⟩

/-! ### The ISR word (R52) -/

theorem getLsbD_flag (b : Bool) (k : Nat) : ((BitVec.ofBool b).setWidth 32).getLsbD k = (decide (k = 0) && b) := by
  by_cases hk : k = 0 <;> simp [hk, BitVec.getLsbD_ofBool]

/-- A flag shifted to bit `j` is that bit of the word, and no other. -/
theorem getLsbD_flag_shiftLeft (b : Bool) {j : Nat} (hj : j < 32) (k : Nat) :
    ((BitVec.ofBool b).setWidth 32 <<< j).getLsbD k = (decide (k = j) && b) := by
  rw [BitVec.getLsbD_shiftLeft, getLsbD_flag]
  by_cases hk : k = j
  · simp [hk, hj]
  · have hapart : k < j ∨ k - j ≠ 0 := by omega
    rcases hapart with h | h <;> simp [h, hk]

/-- Settles O7: each of the seven disjuncts is one flag at its bit. -/
theorem isrWordBits : Obligations.IsrWordBits := by
  refine fun f => ⟨fun k => ?_, fun w => ⟨rfl, rfl, rfl⟩⟩
  simp (disch := decide) only [Isr.word, BitVec.getLsbD_or, getLsbD_flag, getLsbD_flag_shiftLeft]

/-! ### Bus bytes (R54, R55) -/

theorem addressByte_eq (a7 : Addr7) (rw : Dir) : addressByte a7 rw = (a7.setWidth 8 <<< 1) ||| (dirBit rw).setWidth 8 := by
  rw [addressByte, BitVec.append_def, BitVec.shiftLeftZeroExtend_eq]
  rfl

/-- The auto-increment bit may be set already. -/
theorem or_autoInc_of_bit {reg : Byte} (h : reg.getLsbD 7 = true) : reg ||| autoInc = reg := by
  apply BitVec.eq_of_getLsbD_eq
  intro k hk
  interval_cases k <;> simp_all [autoInc]

/-- Settles O8: the address byte is a shift and an OR, and the sub-address byte is R55's by definition. -/
theorem busBytes : Obligations.BusBytes := by
  intro a7 reg
  refine ⟨?_, addressByte_eq a7 .read, rfl, rfl, rfl, or_autoInc_of_bit⟩
  rw [addressByte_eq a7 .write]
  exact BitVec.or_zero

/-! ### The programs (R95 to R97) -/

/-- Settles O34: the programs of the model with their CR2 words evaluated. -/
theorem shapePrograms : Obligations.ShapePrograms := by
  rintro q a rfl
  refine ⟨fun hcmd => ?_, fun hcmd => ?_, fun hcmd => ?_⟩
  · simp only [program, hcmd, subAddress, cr2Value_write_two]
  · simp only [program, hcmd, subAddress, cr2Value_write_one, cr2Value_read_one]
  · simp only [program, hcmd, subAddress, autoInc, cr2Value_write_one, cr2Value_read]

end Sys2Proof.Machine
end

-- Family 30_encoding.md, part three: the START write, the facade's expansion and the launch premises.
section
/-! A START write case by case (R60, R66, R68, R120), obligation O14; the range a `read_all` names (R109), obligation O24; and the
premises of R130 that every step keeps, obligation O43. -/

namespace Sys2Proof.Machine

/-! ### The START write -/

theorem hasUnsupportedField_iff (v : Word) : hasUnsupportedField v = true ↔ v &&& cr2Mbz ≠ 0#32 := by
  simp [hasUnsupportedField]

theorem hasUnsupportedField_eq_false_iff (v : Word) : hasUnsupportedField v = false ↔ v &&& cr2Mbz = 0#32 := by
  simp [hasUnsupportedField]

theorem writeCr2Start_of_unsupported {s : State} {v : Word} (h : hasUnsupportedField v = true) :
    writeCr2Start s v = .refuse .unsupportedCr2Field := by
  rw [writeCr2Start, if_pos h]

theorem writeCr2Start_of_zeroNbytes {s : State} {v : Word} (h : hasUnsupportedField v = false) (hn : cr2Nbytes v = 0#8) :
    writeCr2Start s v = .refuse .zeroNbytes := by
  simp [writeCr2Start, h, hn]

theorem writeCr2Start_of_active {s : State} {v : Word} (h : hasUnsupportedField v = false) (hn : cr2Nbytes v ≠ 0#8)
    (hq : s.quiescent = false) : writeCr2Start s v = .fault .cr2WhileActive := by
  simp [writeCr2Start, h, hn, hq]

theorem writeCr2Start_of_quiescent {s : State} {v : Word} (h : hasUnsupportedField v = false) (hn : cr2Nbytes v ≠ 0#8)
    (hq : s.quiescent = true) : writeCr2Start s v = .done (s.beginPhase v) () := by
  simp [writeCr2Start, h, hn, hq]

/-- What the controller latches of the word `v` (R66). -/
def State.latched (s : State) (v : Word) : Ctl :=
  { phase := .addr, sadd7 := cr2Sadd7 v, rw := cr2Dir v, rem := cr2Nbytes v, autoend := cr2Autoend v, shift := s.ctl.shift }

theorem State.beginPhase_of_idle {s : State} (v : Word) (hp : s.ctl.phase = .idle) :
    s.beginPhase v = { s with
      reg := { s.reg with cr2 := v, isr := { s.reg.isr with busy := true } }, ctl := s.latched v,
      trace := s.trace ++ [.start] } := by
  rw [State.beginPhase, hp]
  rfl

theorem State.beginPhase_of_tcHold {s : State} (v : Word) (hp : s.ctl.phase = .tcHold) :
    s.beginPhase v = { s with
      reg := { s.reg with cr2 := v, isr := { s.reg.isr with tc := false } }, ctl := s.latched v,
      trace := s.trace ++ [.repStart] } := by
  rw [State.beginPhase, hp]
  rfl

/-- Both START rows are the START write. -/
theorem exec_wrCr2Start (v : Word) (s : State) :
    exec (if v.getLsbD 10 then .wrCr2StartR v else .wrCr2StartW v) s = .next (writeLine s (writeCr2Start s v)) := by
  split <;> rfl

/-- Settles O14: what the START write answers in each case, and from Idle and TcHold the phase it begins. -/
theorem startWrite : Obligations.StartWrite := by
  rintro v s - rw rfl i rfl c rfl
  refine ⟨fun hu => ?_, fun hu hn => ?_, fun hu hn hidle hhold => ?_, fun hu hn hp => ?_, fun hu hn hp => ?_⟩ <;>
    rw [exec_wrCr2Start]
  · rw [writeCr2Start_of_unsupported ((hasUnsupportedField_iff v).2 hu)]
    rfl
  · rw [writeCr2Start_of_zeroNbytes ((hasUnsupportedField_eq_false_iff v).2 hu) hn]
    rfl
  · rw [writeCr2Start_of_active ((hasUnsupportedField_eq_false_iff v).2 hu) hn
      ((State.quiescent_eq_false_iff s).2 ⟨hidle, hhold⟩)]
    rfl
  · rw [writeCr2Start_of_quiescent ((hasUnsupportedField_eq_false_iff v).2 hu) hn ((State.quiescent_iff s).2 (.inl hp)),
      State.beginPhase_of_idle v hp]
    rfl
  · rw [writeCr2Start_of_quiescent ((hasUnsupportedField_eq_false_iff v).2 hu) hn ((State.quiescent_iff s).2 (.inr hp)),
      State.beginPhase_of_tcHold v hp]
    rfl

/-! ### The facade (R110 to R112) -/

theorem exec_facadeRead {s : State} {slave : SlaveName} {reg : RegName} {a7 : Addr7} {r : Byte}
    (ha : slaveAddr s.params slave = some a7) (hr : boundAddr s.params slave reg = some r) :
    exec (.facadeRead slave reg) s = exec (.singleRead a7 r) s := by
  simp [exec, execFacadeRead, execSingleRead, ha, hr]

theorem exec_facadeWrite {s : State} {slave : SlaveName} {reg : RegName} {a7 : Addr7} {r : Byte}
    (ha : slaveAddr s.params slave = some a7) (hr : boundAddr s.params slave reg = some r) (val : Byte) :
    exec (.facadeWrite slave reg val) s = exec (.singleWrite a7 r val) s := by
  simp [exec, execFacadeWrite, execSingleWrite, ha, hr]

theorem exec_facadeReadAll {s : State} {slave : SlaveName} {range : RangeName} {a7 : Addr7} {first n : Byte}
    (ha : slaveAddr s.params slave = some a7) (hspan : rangeSpan s.params slave range = some (first, n)) (buf buflen : Nat) :
    exec (.facadeReadAll slave range buf buflen) s = exec (.burstRead a7 first n buf buflen) s := by
  simp [exec, execFacadeReadAll, execBurstRead, ha, hspan]

/-- A range with bound ends in order spans the bytes from the first up to, not including, the last (R109, R112). -/
theorem rangeSpan_of_bounds {p : Params} {slave : SlaveName} {range : RangeName} {e : RangeEntry} {first last : Byte}
    (he : rangeEntry p slave range = some e) (hfirst : boundAddr p slave e.first = some first)
    (hlast : boundAddr p slave e.last = some last) (hle : first.toNat ≤ last.toNat) :
    rangeSpan p slave range = some (first, BitVec.ofNat 8 (last.toNat - first.toNat)) := by
  simp [rangeSpan, he, hfirst, hlast, hle]

/-- Settles O24: the length of a range is below 256, so its byte is the length. -/
theorem facadeExpands : Obligations.FacadeExpands := by
  intro s slave reg range val buf buflen a7 r ha
  refine ⟨fun hr => ⟨exec_facadeRead ha hr, exec_facadeWrite ha hr val⟩, fun e first last he hfirst hlast hle => ?_⟩
  have hlen : last.toNat - first.toNat < 2 ^ 8 := lt_of_le_of_lt (Nat.sub_le _ _) last.isLt
  exact ⟨_, (BitVec.toNat_ofNat _ _).trans (Nat.mod_eq_of_lt hlen),
    exec_facadeReadAll ha (rangeSpan_of_bounds he hfirst hlast hle) buf buflen⟩

/-! ### The launch premises (R130) -/

/-- ADD10 is one of the bits of `CR2_MBZ` (R15, R50). -/
theorem add10_of_and_mbz {v : Word} (h : v &&& cr2Mbz = 0#32) : v.getLsbD 11 = false := by
  have hbit : (v &&& cr2Mbz).getLsbD 11 = false := by rw [h]; rfl
  simpa [cr2Mbz] using hbit

/-- Settles O43: a step changes no parameter and no upstream register (O57), and keeps ADD10 clear in CR2 (O42). -/
theorem stepKeepsLaunch : Obligations.StepKeepsLaunch := by
  intro s t hi ⟨hclocked, henabled, ⟨_, hmaster⟩, hirq⟩ h
  obtain ⟨_, _, _, hparams, hupstream⟩ := stepKeepsHistory s t h
  have hadd10 : t.reg.cr2.getLsbD 11 = false := add10_of_and_mbz (stepKeepsInv s t hi h).cr2
  refine ⟨?_, congrArg Params.base hparams⟩
  simp only [State.lpUpstream, State.lpClocked, State.lpEnabled, State.lpMaster7, State.lpNoIrq, hparams, hupstream]
  exact ⟨hclocked, henabled, ⟨hadd10, hmaster⟩, hirq⟩

end Sys2Proof.Machine
end

-- Family 40_register_interface.md, part one: which accesses are rows of the table.
section
/-! Access admission (R65, R74), obligation O5: inside the table by offset, outside it by width or address. -/

namespace Sys2Proof

theorem decodeCr2Write_eq (v : Word) :
    decodeCr2Write v =
      if v.getLsbD 13 = false then .wrCr2NoStart v else if v.getLsbD 10 then .wrCr2StartR v else .wrCr2StartW v := by
  cases h : v.getLsbD 13 <;> rw [decodeCr2Write, startBit, h] <;> rfl

theorem decodeRegRead_of_outside {off : Nat} (h : off ≠ offCr2 ∧ off ≠ offIsr ∧ off ≠ offRxdr ∧ off ≠ offTxdr) :
    decodeRegRead off = .unsupportedAccess := by
  simp [decodeRegRead, h]

theorem decodeRegWrite_of_outside {off : Nat} (h : off ≠ offCr2 ∧ off ≠ offIsr ∧ off ≠ offRxdr ∧ off ≠ offTxdr) (v : Word) :
    decodeRegWrite off v = .unsupportedAccess := by
  simp [decodeRegWrite, h]

/-- An access of another width, below the base, or at an offset of no register is none of the table's (R65; notes/assumptions/23.md). -/
theorem decode_access_of_outside {base addr width : Nat} (kind : AccessKind)
    (h : width ≠ 32 ∨
      addr ≠ base + offCr2 ∧ addr ≠ base + offIsr ∧ addr ≠ base + offRxdr ∧ addr ≠ base + offTxdr) :
    decode base (.access ⟨addr, width, kind⟩) = .unsupportedAccess := by
  by_cases hwidth : width = 32
  · by_cases hbase : base ≤ addr
    · have hoff : addr - base ≠ offCr2 ∧ addr - base ≠ offIsr ∧ addr - base ≠ offRxdr ∧ addr - base ≠ offTxdr := by omega
      cases kind with
      | read => simp [decode, decodeAccess, hwidth, hbase, decodeRegRead_of_outside hoff]
      | write v => simp [decode, decodeAccess, hwidth, hbase, decodeRegWrite_of_outside hoff v]
    · simp [decode, decodeAccess, hwidth, hbase]
  · simp [decode, decodeAccess, hwidth]

end Sys2Proof

namespace Sys2Proof.Machine

theorem runRequest_of_readOnly {r : Request} {s : State} (h : decode s.params.base r = .readOnlyRegister) :
    runRequest r s = .next (s.refuse .readOnly) := by
  rw [runRequest, h]

theorem runRequest_of_unsupported {r : Request} {s : State} (h : decode s.params.base r = .unsupportedAccess) :
    runRequest r s = .next (s.refuse .unsupportedAccess) := by
  rw [runRequest, h]

/-- Settles O5: an access at an offset of the table decodes by its column there, and one outside the table is refused. -/
theorem accessAdmission : Obligations.AccessAdmission := by
  rintro s addr width kind base rfl
  refine ⟨?_, ?_, ?_, ?_, ?_, ?_, ?_, fun houtside => ?_⟩
  · rintro rfl rfl rfl
    exact decode_regReadAt s.params.base offCr2
  · rintro rfl rfl rfl
    exact decode_regReadAt s.params.base offIsr
  · rintro rfl rfl rfl
    exact decode_regReadAt s.params.base offRxdr
  · rintro rfl rfl rfl
    exact decode_regReadAt s.params.base offTxdr
  · rintro v rfl rfl rfl
    rw [← decodeCr2Write_eq]
    exact decode_cr2Write s.params.base v
  · rintro v rfl rfl rfl
    exact decode_regWriteAt s.params.base offTxdr v
  · rintro v rfl (rfl | rfl) rfl
    · exact runRequest_of_readOnly (decode_regWriteAt s.params.base offIsr v)
    · exact runRequest_of_readOnly (decode_regWriteAt s.params.base offRxdr v)
  · exact runRequest_of_unsupported (decode_access_of_outside kind houtside)

end Sys2Proof.Machine
end

-- Family 40_register_interface.md, part two: the CR2 writes and the reads.
section
/-! The write without START (R67), obligation O16; any CR2 write in an active phase (R68, R120), obligation O15; and the four reads
(R69, R70, R72, R73), obligations O17 and O19. -/

namespace Sys2Proof.Machine

/-! ### The write without START -/

theorem writeCr2NoStart_of_unsupported {s : State} {v : Word} (h : hasUnsupportedField v = true) :
    writeCr2NoStart s v = .refuse .unsupportedCr2Field := by
  rw [writeCr2NoStart, if_pos h]

theorem writeCr2NoStart_of_active {s : State} {v : Word} (h : hasUnsupportedField v = false) (hq : s.quiescent = false) :
    writeCr2NoStart s v = .fault .cr2WhileActive := by
  simp [writeCr2NoStart, h, hq]

theorem writeCr2NoStart_of_quiescent {s : State} {v : Word} (h : hasUnsupportedField v = false) (hq : s.quiescent = true) :
    writeCr2NoStart s v = .done (s.setCr2 v) () := by
  simp [writeCr2NoStart, h, hq]

theorem exec_wrCr2NoStart (v : Word) (s : State) : exec (.wrCr2NoStart v) s = .next (writeLine s (writeCr2NoStart s v)) := rfl

/-- Settles O16: the access's effect or its mark is the whole of the row. -/
theorem noStartWrite : Obligations.NoStartWrite := by
  intro v s _
  refine ⟨fun hu => ?_, fun hu hidle hhold => ?_, fun hu hp => ?_⟩ <;> rw [exec_wrCr2NoStart]
  · rw [writeCr2NoStart_of_unsupported ((hasUnsupportedField_iff v).2 hu)]
    rfl
  · rw [writeCr2NoStart_of_active ((hasUnsupportedField_eq_false_iff v).2 hu)
      ((State.quiescent_eq_false_iff s).2 ⟨hidle, hhold⟩)]
    rfl
  · rw [writeCr2NoStart_of_quiescent ((hasUnsupportedField_eq_false_iff v).2 hu) ((State.quiescent_iff s).2 hp)]
    rfl

/-! ### CR2 writes in an active phase -/

theorem quiescent_eq_false_of_active {s : State}
    (hp : s.ctl.phase = .addr ∨ s.ctl.phase = .txNeed ∨ s.ctl.phase = .txSend ∨ s.ctl.phase = .rxRecv ∨
      s.ctl.phase = .endPhase) : s.quiescent = false := by
  rw [State.quiescent_eq_false_iff]
  rcases hp with hp | hp | hp | hp | hp <;> simp [hp]

/-- Each of the two START rows is the START write. -/
theorem exec_of_startRow {i : Instr} {v : Word} (hi : i = .wrCr2StartW v ∨ i = .wrCr2StartR v) (s : State) :
    exec i s = .next (writeLine s (writeCr2Start s v)) := by
  rcases hi with rfl | rfl <;> rfl

/-- Settles O15: the START write looks at NBYTES before the phase, the write without START at the phase alone. -/
theorem activeWriteFaults : Obligations.ActiveWriteFaults := by
  intro v s i hi hu hp
  have hsupported : hasUnsupportedField v = false := (hasUnsupportedField_eq_false_iff v).2 hu
  have hactive : s.quiescent = false := quiescent_eq_false_of_active hp
  have hrow : (i = .wrCr2StartW v ∨ i = .wrCr2StartR v) ∨ i = .wrCr2NoStart v := or_assoc.2 hi
  rcases hrow with hstart | rfl
  · rw [exec_of_startRow hstart]
    refine ⟨fun hn => ?_, fun _ hn => ?_⟩
    · have hnbytes : cr2Nbytes v ≠ 0#8 := hn.resolve_left (by rcases hstart with rfl | rfl <;> nofun)
      rw [writeCr2Start_of_active hsupported hnbytes hactive]
      rfl
    · rw [writeCr2Start_of_zeroNbytes hsupported hn]
      rfl
  · refine ⟨fun _ => ?_, fun hne => absurd rfl hne⟩
    rw [exec_wrCr2NoStart, writeCr2NoStart_of_active hsupported hactive]
    rfl

/-! ### The reads -/

theorem exec_rdCr2 (s : State) : exec .rdCr2 s = .next (s.setReply s.reg.cr2) := rfl
theorem exec_rdIsr (s : State) : exec .rdIsr s = .next (s.setReply s.reg.isr.word) := rfl
theorem exec_rdTxdr (s : State) : exec .rdTxdr s = .next (s.setReply (dataWord s.reg.txdata)) := rfl

/-- Settles O17: the word read is the reply. -/
theorem readsReturnWord : Obligations.ReadsReturnWord :=
  fun s => ⟨exec_rdCr2 s, exec_rdIsr s, exec_rdTxdr s⟩

theorem readRxdr_of_empty {s : State} (h : s.reg.isr.rxne = false) : readRxdr s = .fault .rxdrEmpty := by
  simp [readRxdr, h]

theorem readRxdr_of_full {s : State} (h : s.reg.isr.rxne = true) :
    readRxdr s = .done (s.setIsr s.reg.isr.onRxRead) (dataWord s.reg.rxdata) := by
  rw [readRxdr, if_pos h]

theorem exec_rdRxdr (s : State) : exec .rdRxdr s = .next (readLine s (readRxdr s)) := rfl

/-- Settles O19: the access's effect with its reply, or its mark, is the whole of the row. -/
theorem rxdrRead : Obligations.RxdrRead := by
  intro s
  refine ⟨fun h => ?_, fun h => ?_⟩ <;> rw [exec_rdRxdr]
  · rw [readRxdr_of_empty h]
    rfl
  · rw [readRxdr_of_full h]
    rfl

end Sys2Proof.Machine
end

-- Family 40_register_interface.md, part three: what the register rows leave unchanged.
section
/-! The results of the eight register rows, row by row, and from them their frame: obligation O20. -/

namespace Sys2Proof.Machine

/-- `i` is one of the eight register rows. -/
def IsRegisterRow (i : Instr) : Prop :=
  (∃ v, i = .wrCr2StartW v) ∨ (∃ v, i = .wrCr2StartR v) ∨ (∃ v, i = .wrCr2NoStart v) ∨ (∃ v, i = .wrTxdr v) ∨
    i = .rdCr2 ∨ i = .rdIsr ∨ i = .rdTxdr ∨ i = .rdRxdr

/-- The results of a register row: a mark alone, or the effect of the row it is. Unlike `Executed`, each result names its row. -/
inductive Accessed (s : State) : Instr → State → Prop where
  | refused {i : Instr} (r : Refusal) : Accessed s i (s.refuse r)
  | faulted {i : Instr} (f : Fault) : Accessed s i (s.raise f)
  | started {i : Instr} (v : Word) (hi : i = .wrCr2StartW v ∨ i = .wrCr2StartR v) (hq : s.quiescent = true) :
      Accessed s i (s.beginPhase v)
  | stored (v : Word) : Accessed s (.wrCr2NoStart v) (s.setCr2 v)
  | sent (v : Word) : Accessed s (.wrTxdr v)
      (((s.setTxdata (dataByte v)).setIsr s.reg.isr.onTxWrite).setCtl { s.ctl with shift := dataByte v, phase := .txSend })
  | replied {i : Instr} (v : Word) (hi : i = .rdCr2 ∨ i = .rdIsr ∨ i = .rdTxdr) : Accessed s i (s.setReply v)
  | received : Accessed s .rdRxdr ((s.setIsr s.reg.isr.onRxRead).setReply (dataWord s.reg.rxdata))

theorem startRow_accessed {i : Instr} {v : Word} (hi : i = .wrCr2StartW v ∨ i = .wrCr2StartR v) (s : State) :
    Accessed s i (writeLine s (writeCr2Start s v)) := by
  rcases writeCr2Start_cases s v with ⟨h, _⟩ | ⟨h, _⟩ | ⟨h, _⟩ | ⟨h, _, hq, _⟩ <;> rw [h]
  · exact .refused _
  · exact .refused _
  · exact .faulted _
  · exact .started v hi hq

theorem noStartRow_accessed (v : Word) (s : State) : Accessed s (.wrCr2NoStart v) (writeLine s (writeCr2NoStart s v)) := by
  rcases writeCr2NoStart_cases s v with ⟨h, _⟩ | ⟨h, _⟩ | ⟨h, _⟩ <;> rw [h]
  · exact .refused _
  · exact .faulted _
  · exact .stored v

theorem txdrRow_accessed (v : Word) (s : State) : Accessed s (.wrTxdr v) (writeLine s (writeTxdr s v)) := by
  rcases writeTxdr_cases s v with ⟨h, _⟩ | ⟨h, _⟩ | ⟨h, _⟩ <;> rw [h]
  · exact .refused _
  · exact .faulted _
  · exact .sent v

theorem rxdrRow_accessed (s : State) : Accessed s .rdRxdr (readLine s (readRxdr s)) := by
  rcases readRxdr_cases s with ⟨h, _⟩ | ⟨h, _⟩ <;> rw [h]
  · exact .faulted _
  · exact .received

theorem exec_accessed {i : Instr} {s t : State} (h : exec i s = .next t) (hi : IsRegisterRow i) : Accessed s i t := by
  rcases hi with ⟨v, rfl⟩ | ⟨v, rfl⟩ | ⟨v, rfl⟩ | ⟨v, rfl⟩ | rfl | rfl | rfl | rfl <;> cases h
  · exact startRow_accessed (.inl rfl) s
  · exact startRow_accessed (.inr rfl) s
  · exact noStartRow_accessed v s
  · exact txdrRow_accessed v s
  · exact .replied _ (.inl rfl)
  · exact .replied _ (.inr (.inl rfl))
  · exact .replied _ (.inr (.inr rfl))
  · exact rxdrRow_accessed s

/-- Settles O20, result by result: a mark touches none of the fields, and each effect touches those of its own row. -/
theorem registerRowFrame : Obligations.RegisterRowFrame := by
  intro i s t h hi
  cases exec_accessed h hi with
  | refused r | faulted f => simp
  | started v hrow hq =>
    rcases State.beginPhase_bus v hq with ⟨_, htrace, hisr⟩ | ⟨_, htrace, hisr⟩ <;> rcases hrow with rfl | rfl <;>
      simp [htrace, hisr, Isr.onStart, Isr.onRepStart]
  | stored v => simp
  | sent v => simp [Isr.onTxWrite]
  | replied v hrow => rcases hrow with rfl | rfl | rfl <;> simp
  | received => simp [Isr.onRxRead]

end Sys2Proof.Machine
end

-- Family 41_controller_fsm.md, part one: the bus grammar.
section
/-! The bus trace (R86): each accepted register access and each controller step emits what the grammar has next and leaves the position
its phase stands for; obligation O44 puts them together. -/

namespace Sys2Proof.Machine

/-! ### The count and the position of a phase -/

/-- START is not among the bits of NBYTES (R15). -/
@[simp] theorem cr2Nbytes_clearStart (v : Word) : cr2Nbytes (clearStart v) = cr2Nbytes v := by
  apply BitVec.eq_of_getLsbD_eq
  intro k hk
  interval_cases k <;> simp [cr2Nbytes, clearStart]

/-- The last byte makes the phase's count NBYTES. -/
theorem bytes_of_rem_last {rem : Byte} {k n : Nat} (h0 : rem - 1#8 = 0#8) (hn : k + rem.toNat = n) : k + 1 = n := by
  bv_omega

/-- A count that is not 0 drops without wrapping (R8). -/
theorem bytes_add_rem_sub_one {rem : Byte} {k n : Nat} (hrem : rem ≠ 0#8) (hn : k + rem.toNat = n) :
    k + 1 + (rem - 1#8).toNat = n := by
  bv_omega

/-- A write phase may end, or a new one be opened, after a byte at least (R86). -/
theorem busNext_writing_stop {k : Nat} (hk : 0 < k) : busNext (.writing k) .stop = some .free := by
  obtain ⟨k, rfl⟩ := Nat.exists_eq_add_one.2 hk
  rfl

theorem busNext_writing_repStart {k : Nat} (hk : 0 < k) : busNext (.writing k) .repStart = some .opened := by
  obtain ⟨k, rfl⟩ := Nat.exists_eq_add_one.2 hk
  rfl

/-- The events `l` lead from the position of `s` to one that the phase of `t` stands for. -/
theorem State.onGrammar_of_append {s t : State} {p q : BusPos} {l : List BusEvent} (hp : busPos s.trace = some p)
    (ht : t.trace = s.trace ++ l) (hl : l.foldl busAfter (some p) = some q)
    (hq : phasePos t.ctl (cr2Nbytes t.reg.cr2).toNat q) : t.onGrammar :=
  ⟨q, by rw [ht, busPos_append, hp, hl], hq⟩

/-- The grammar looks at the trace, the controller and CR2 alone. -/
theorem State.onGrammar.of_eq {s t : State} (h : s.onGrammar) (ht : t.trace = s.trace) (hc : t.ctl = s.ctl)
    (hr : t.reg.cr2 = s.reg.cr2) : t.onGrammar := by
  unfold State.onGrammar
  rwa [ht, hc, hr]

/-! ### The register accesses that are accepted -/

/-- A quiescent controller is at a position that a START or a repeated START may follow (R66, R86). -/
theorem State.onGrammar.beginPhase {s : State} (h : s.onGrammar) (hq : s.quiescent = true) (v : Word) :
    (s.beginPhase v).onGrammar := by
  obtain ⟨p, hp, hpos⟩ := h
  have hopened : phasePos (s.beginPhase v).ctl (cr2Nbytes (s.beginPhase v).reg.cr2).toNat .opened := by simp [phasePos]
  rcases State.beginPhase_bus v hq with ⟨hph, ht, _⟩ | ⟨hph, ht, _⟩ <;> simp only [phasePos, hph] at hpos
  · subst hpos
    exact State.onGrammar_of_append hp ht rfl hopened
  · obtain ⟨k, hk, rfl | rfl⟩ := hpos
    · exact State.onGrammar_of_append hp ht (busNext_writing_repStart hk) hopened
    · exact State.onGrammar_of_append hp ht rfl hopened

/-- NBYTES may change between phases, where no position depends on it (R67). -/
theorem State.onGrammar.setCr2 {s : State} (h : s.onGrammar) (hq : s.quiescent = true) (v : Word) : (s.setCr2 v).onGrammar := by
  obtain ⟨p, hp, hpos⟩ := h
  refine ⟨p, hp, ?_⟩
  rcases (State.quiescent_iff s).1 hq with hph | hph <;> simpa [phasePos, hph] using hpos

/-- TxNeed and TxSend stand for the same positions: the byte goes out with the controller's step (R71, R79). -/
theorem State.onGrammar.sendByte {s : State} (h : s.onGrammar) (b : Byte) (hph : s.ctl.phase = .txNeed) :
    (((s.setTxdata b).setIsr s.reg.isr.onTxWrite).setCtl { s.ctl with shift := b, phase := .txSend }).onGrammar := by
  obtain ⟨p, hp, hpos⟩ := h
  exact ⟨p, hp, by simpa [phasePos, hph] using hpos⟩

/-! ### The agents -/

theorem Presented.onGrammar {s t : State} (h : Presented s t) (hg : s.onGrammar) : t.onGrammar := by
  cases h <;> exact hg.of_eq rfl rfl rfl

theorem Executed.onGrammar {wf : Prop} {s t : State} (h : Executed wf s t) (hg : s.onGrammar) : t.onGrammar := by
  cases h with
  | presented h => exact h.onGrammar hg
  | started v _ _ hq => exact hg.beginPhase hq v
  | stored v _ _ hq => exact hg.setCr2 hq v
  | sent b hph => exact hg.sendByte b hph
  | _ => exact hg.of_eq rfl rfl rfl

theorem Stepped.onGrammar {s t : State} (h : Stepped s t) (hg : s.onGrammar) : t.onGrammar := by
  cases h with
  | started v _ _ hq | startedBurst v _ _ hq => exact (hg.beginPhase hq v).of_eq rfl rfl rfl
  | sent b _ hph => exact (hg.sendByte b hph).of_eq rfl rfl rfl
  | _ => exact hg.of_eq rfl rfl rfl

/-- Each controller step emits what the grammar has next, and counts the byte it sends or receives (R77 to R84, R86). -/
theorem ControllerStepped.onGrammar {s t : State} (h : ControllerStepped s t) (hf : PhaseFlags s) (hg : s.onGrammar) :
    t.onGrammar := by
  obtain ⟨p, hp, hpos⟩ := hg
  cases h with
  | addressNacked e hph =>
    simp only [phasePos, hph] at hpos
    obtain ⟨rfl, _⟩ := hpos
    exact State.onGrammar_of_append hp rfl rfl rfl
  | addressedWrite e hph hw =>
    simp only [phasePos, hph] at hpos
    obtain ⟨rfl, hn⟩ := hpos
    exact State.onGrammar_of_append hp rfl (by rw [hw]; rfl) ⟨hw, 0, rfl, by simpa using hn⟩
  | addressedRead e hph hw =>
    simp only [phasePos, hph] at hpos
    obtain ⟨rfl, hn⟩ := hpos
    exact State.onGrammar_of_append hp rfl (by rw [hw]; rfl) ⟨hw, 0, rfl, by simpa using hn⟩
  | sentNacked e hph =>
    simp only [phasePos, hph] at hpos
    obtain ⟨_, k, rfl, _⟩ := hpos
    exact State.onGrammar_of_append hp rfl rfl rfl
  | sentLast e hph h0 =>
    simp only [phasePos, hph] at hpos
    obtain ⟨hw, k, rfl, hn⟩ := hpos
    have hlast := bytes_of_rem_last h0 hn
    exact State.onGrammar_of_append hp rfl rfl ⟨by simp [← hlast], .inl ⟨hw, congrArg _ hlast⟩⟩
  | sentMore e hph h0 =>
    simp only [phasePos, hph] at hpos
    obtain ⟨hw, k, rfl, hn⟩ := hpos
    exact State.onGrammar_of_append hp rfl rfl ⟨hw, k + 1, rfl, bytes_add_rem_sub_one (hf.rem (by simp [hph])) hn⟩
  | receivedLast e b hph hr h0 =>
    simp only [phasePos, hph] at hpos
    obtain ⟨hw, k, rfl, hn⟩ := hpos
    have hlast := bytes_of_rem_last h0 hn
    exact State.onGrammar_of_append hp rfl rfl ⟨by simp [← hlast], .inr ⟨hw, congrArg _ hlast⟩⟩
  | receivedMore e b hph hr h0 =>
    simp only [phasePos, hph] at hpos
    obtain ⟨hw, k, rfl, hn⟩ := hpos
    refine State.onGrammar_of_append (q := .reading (k + 1)) hp rfl rfl ?_
    simp only [phasePos, hph]
    exact ⟨hw, k + 1, rfl, bytes_add_rem_sub_one (hf.rem (by simp [hph])) hn⟩
  | stopped hph ha =>
    simp only [phasePos, hph] at hpos
    obtain ⟨hn, ⟨_, rfl⟩ | ⟨_, rfl⟩⟩ := hpos
    · exact State.onGrammar_of_append hp rfl (busNext_writing_stop hn) rfl
    · exact State.onGrammar_of_append hp rfl rfl rfl
  | held hph ha =>
    simp only [phasePos, hph] at hpos
    obtain ⟨hn, hend⟩ := hpos
    exact ⟨p, hp, _, hn, hend.imp And.right And.right⟩

/-- Settles O44: each result of each agent follows the grammar from the position its phase stands for. -/
theorem stepKeepsBusGrammar : Obligations.StepKeepsBusGrammar := by
  intro s t hi hg h
  obtain ⟨e, rfl | hs | hc | hx⟩ := step_next_agent h
  · exact hg.of_eq rfl rfl rfl
  · exact hs.onGrammar (hg.of_eq rfl rfl rfl)
  · exact hc.onGrammar (hi.setEnv e).flags (hg.of_eq rfl rfl rfl)
  · exact hx.onGrammar (hg.of_eq rfl rfl rfl)

end Sys2Proof.Machine
end

-- Family 41_controller_fsm.md, part two: the controller's steps.
section
/-! The controller's steps written out for the answer the slave gives, where it has none, and what they leave: obligations O28 to O33.
The theorems on the four steps stand under `Controller`, as the model itself has the bare names. -/

namespace Sys2Proof.Machine

/-! ### Where the controller has a step -/

theorem controllerStep_of_addr {s : State} (h : s.ctl.phase = .addr) : controllerStep s = some (addressStep s) := by
  simp [controllerStep, h]

theorem controllerStep_of_txSend {s : State} (h : s.ctl.phase = .txSend) : controllerStep s = some (transmitStep s) := by
  simp [controllerStep, h]

theorem controllerStep_of_rxRecv {s : State} (h : s.ctl.phase = .rxRecv) (hr : s.reg.isr.rxne = false) :
    controllerStep s = some (receiveStep s) := by
  simp [controllerStep, h, hr]

theorem controllerStep_of_endPhase {s : State} (h : s.ctl.phase = .endPhase) : controllerStep s = some (endStep s) := by
  simp [controllerStep, h]

/-- Settles O32, phase by phase. -/
theorem controllerSchedule : Obligations.ControllerSchedule := by
  intro s
  unfold controllerStep
  cases s.ctl.phase <;> simp

/-! ### The bytes that are sent -/

/-- START is bit 13 of CR2 (R15). -/
theorem getLsbD_clearStart {k : Nat} (h : k ≠ 13) (v : Word) : (clearStart v).getLsbD k = v.getLsbD k := by
  have hbit : (1#32 <<< 13).getLsbD k = false := (getLsbD_flag_shiftLeft true (by decide) k).trans (by simp [h])
  rw [clearStart, BitVec.getLsbD_and, BitVec.getLsbD_not, hbit]
  by_cases hk : k < 32
  · simp [hk]
  · simp [hk, BitVec.getLsbD_of_ge v k (Nat.not_lt.1 hk)]

/-- Settles O28: the draw looks at the environment and the trace alone, so START cleared or not the slave answers the same. -/
theorem Controller.addressStep : Obligations.AddressStep := by
  intro s sent hp hsent
  obtain ⟨answer, e, _, hd⟩ := State.drawAck_cases sent (addressByte s.ctl.sadd7 s.ctl.rw)
  refine ⟨⟨answer, e, hd, ?_⟩, startBit_clearStart _, fun k hk => getLsbD_clearStart hk _⟩
  have hd' := State.drawAck_eq hd (t := sent.setCr2 (clearStart s.reg.cr2)) rfl rfl
  subst hsent
  rw [controllerStep_of_addr hp, Machine.addressStep, hd']
  refine ⟨?_, ?_, ?_⟩
  · rintro rfl hw
    simp [State.addressAcked, hw, State.emit, State.setEnv, State.setCr2, State.setIsr, State.setPhase, State.setCtl,
      Isr.onTxReady]
  · rintro rfl hw
    simp [State.addressAcked, hw, State.emit, State.setEnv, State.setCr2, State.setPhase, State.setCtl]
  · rintro rfl
    simp [State.nackStop, State.emit, State.setEnv, State.setCr2, State.setIsr, State.setPhase, State.setCtl, Isr.onNack]

/-- Settles O29: the draw looks at the environment and the trace alone. -/
theorem Controller.transmitStep : Obligations.TransmitStep := by
  intro s sent hp hsent
  obtain ⟨answer, e, _, hd⟩ := State.drawAck_cases sent s.reg.txdata
  refine ⟨answer, e, hd, ?_⟩
  have hd' := State.drawAck_eq hd
    (t := ((s.setCtl { s.ctl with shift := s.reg.txdata }).setIsr s.reg.isr.onShift).emit (.mWrite s.reg.txdata))
    (by rw [hsent]; rfl) (by rw [hsent]; rfl)
  rw [controllerStep_of_txSend hp, Machine.transmitStep, hd']
  refine ⟨?_, ?_, ?_⟩
  · rintro rfl hrem
    have hleft : s.ctl.rem - 1#8 ≠ 0#8 := by bv_omega
    simp [State.byteAcked, hleft, State.emit, State.setEnv, State.setIsr, State.setCtl, Isr.onTxReady, Isr.onShift]
  · rintro rfl hrem
    simp [State.byteAcked, hrem, State.emit, State.setEnv, State.setIsr, State.setCtl, Isr.onShift]
  · rintro rfl
    simp [State.nackStop, State.emit, State.setEnv, State.setIsr, State.setPhase, State.setCtl, Isr.onNack, Isr.onShift]

/-! ### The bytes that are received -/

/-- Settles O30: the count is 0 after the step exactly where it was 1 before. -/
theorem Controller.receiveStep : Obligations.ReceiveStep := by
  intro s hp hr
  obtain ⟨b, e, _, hd⟩ := State.drawByte_cases s
  refine ⟨b, e, hd, ?_⟩
  rw [controllerStep_of_rxRecv hp hr, Machine.receiveStep, hd]
  refine ⟨fun hrem => ?_, fun hrem => ?_⟩
  · have hleft : s.ctl.rem - 1#8 ≠ 0#8 := by bv_omega
    simp [hleft, State.emit, State.setEnv, State.setIsr, State.setRxdata, State.setCtl, Isr.onReceive]
  · simp [hrem, State.emit, State.setEnv, State.setIsr, State.setRxdata, State.setCtl, Isr.onReceive]

/-! ### The end of a phase -/

/-- Settles O31, for both values of autoend. -/
theorem Controller.endStep : Obligations.EndStep := by
  intro s hp
  rw [controllerStep_of_endPhase hp, Machine.endStep]
  refine ⟨fun ha => ?_, fun ha => ?_⟩
  · simp [ha, State.emit, State.setIsr, State.setPhase, State.setCtl, Isr.onStop]
  · simp [ha, State.setIsr, State.setPhase, State.setCtl, Isr.onComplete]

/-! ### The frame -/

/-- TXDR, the word of the last register-access line, and what the phase was latched with are not the controller's to write. -/
theorem ControllerStepped.latched_eq {s t : State} (h : ControllerStepped s t) :
    t.reg.txdata = s.reg.txdata ∧ t.reply = s.reply ∧ t.ctl.sadd7 = s.ctl.sadd7 ∧ t.ctl.rw = s.ctl.rw ∧
    t.ctl.autoend = s.ctl.autoend := by
  cases h <;> exact ⟨rfl, rfl, rfl, rfl, rfl⟩

/-- Settles O33, from what each result of a controller step leaves; its draws leave the caller's list. -/
theorem controllerFrame : Obligations.ControllerFrame := by
  intro s t h
  have hc := controllerStep_stepped h
  obtain ⟨_, _, htrace, hparams, hupstream⟩ := hc.keepsHistory
  obtain ⟨htx, hreply, hsadd7, hrw, hautoend⟩ := hc.latched_eq
  exact ⟨hc.seq_eq, fun _ => hc.mem_eq ▸ rfl, htx, hupstream, hc.faults_eq, hc.refused_eq, hreply, hparams,
    controllerStep_inbox h, htrace, hsadd7, hrw, hautoend⟩

end Sys2Proof.Machine
end

-- Family 41_controller_fsm.md, part three: the sequencer and the controller in step.
section
/-! SUPPORT. The engine's coupling read once: at which micro-step a command in progress is, and where the controller can be then. -/

namespace Sys2Proof.Machine

/-! ### The two programs of a read, and where a WAIT stands -/

/-- The two reads differ in their second CR2 write and in the destination of their RDRX alone (R96, R97). -/
theorem program_of_read {q : Seq} (h : q.cmd ≠ .singleWrite) :
    ∃ w sub o d, (∃ v, o = .wrCr2 v ∨ o = .wrCr2Burst v) ∧
      program q = [.wrCr2 w, .wait .txis, .wrTx sub, .wait .tc, o, .wait .rxne, .rdRx d, .done] := by
  unfold program
  split
  · exact absurd ‹_› h
  · exact ⟨_, _, _, _, ⟨_, .inl rfl⟩, rfl⟩
  · exact ⟨_, _, _, _, ⟨_, .inr rfl⟩, rfl⟩

/-- In each of the programs a WAIT stands at 1, 3 and 5 alone, and an RDRX at 6 (R95 to R97). -/
theorem pc_of_currentMicro {s : State} {m : Micro} (h : currentMicro s = some m) :
    ((∃ f, m = .wait f) → s.seq.pc = 1 ∨ s.seq.pc = 3 ∨ s.seq.pc = 5) ∧ ((∃ d, m = .rdRx d) → s.seq.pc = 6) := by
  unfold currentMicro program at h
  generalize s.seq.pc = k at h ⊢
  split at h <;>
    (obtain ⟨hlen, rfl⟩ := List.getElem?_eq_some_iff.1 h
     simp only [List.length_cons, List.length_nil] at hlen
     interval_cases k <;> simp)

theorem pc_of_wait {s : State} {f : WaitFlag} (h : currentMicro s = some (.wait f)) :
    s.seq.pc = 1 ∨ s.seq.pc = 3 ∨ s.seq.pc = 5 := (pc_of_currentMicro h).1 ⟨f, rfl⟩

theorem pc_of_rdRx {s : State} {d : RxDest} (h : currentMicro s = some (.rdRx d)) : s.seq.pc = 6 :=
  (pc_of_currentMicro h).2 ⟨d, rfl⟩

/-! ### The program and the controller in step -/

/-- Where the controller can be while the sequencer is at the micro-step `m` (R95 to R97, R99), the counts aside. -/
inductive Placed (s : State) : Micro → Prop where
  | opens {m : Micro} (hm : ∃ v, m = .wrCr2 v ∨ m = .wrCr2Burst v) (hq : s.quiescent = true) : Placed s m
  | awaitsTxis (hr : s.reg.isr.rxne = false)
      (hp : s.ctl.phase = .addr ∨ s.ctl.phase = .txSend ∨ s.ctl.phase = .txNeed ∨ s.ctl.phase = .idle) : Placed s (.wait .txis)
  | sends (b : Byte) (hp : s.ctl.phase = .txNeed) : Placed s (.wrTx b)
  | awaitsTc (hr : s.reg.isr.rxne = false)
      (hp : s.ctl.phase = .txSend ∨ s.ctl.phase = .endPhase ∧ s.ctl.autoend = false ∨ s.ctl.phase = .tcHold ∨ s.ctl.phase = .idle) :
      Placed s (.wait .tc)
  | awaitsRxne
      (hp : s.ctl.phase = .addr ∧ s.reg.isr.rxne = false ∨ s.ctl.phase = .rxRecv ∨
        s.ctl.phase = .endPhase ∧ s.reg.isr.rxne = true ∨ s.ctl.phase = .idle) : Placed s (.wait .rxne)
  | reads (d : RxDest) (hr : s.reg.isr.rxne = true)
      (hp : s.ctl.phase = .rxRecv ∨ s.ctl.phase = .endPhase ∨ s.ctl.phase = .idle ∧ s.seq.i.toNat + 1 = readTotal s.seq) :
      Placed s (.rdRx d)
  | ends (hr : s.reg.isr.rxne = false) (hp : s.ctl.phase = .endPhase ∨ s.ctl.phase = .tcHold ∨ s.ctl.phase = .idle) :
      Placed s .done

theorem placed_of_writeCoupling {s : State} (hc : writeCoupling s) (hcmd : s.seq.cmd = .singleWrite)
    (hr : s.reg.isr.rxne = false) : ∃ m, currentMicro s = some m ∧ Placed s m := by
  have hm : currentMicro s = (program s.seq)[s.seq.pc]? := rfl
  rw [program, hcmd] at hm
  unfold writeCoupling at hc
  split at hc
  next hpc =>
    rw [hpc] at hm
    exact ⟨_, hm, .opens ⟨_, .inl rfl⟩ hc⟩
  next hpc =>
    rw [hpc] at hm
    refine ⟨_, hm, .awaitsTxis hr ?_⟩
    obtain ⟨hp | hp, _⟩ | ⟨hp, _⟩ := hc <;> simp [hp]
  next hpc =>
    rw [hpc] at hm
    exact ⟨_, hm, .sends _ hc.1⟩
  next hpc =>
    rw [hpc] at hm
    refine ⟨_, hm, .awaitsTxis hr ?_⟩
    obtain ⟨hp, _⟩ | ⟨hp, _⟩ | ⟨hp, _⟩ := hc <;> simp [hp]
  next hpc =>
    rw [hpc] at hm
    exact ⟨_, hm, .sends _ hc.1⟩
  next hpc =>
    rw [hpc] at hm
    exact ⟨_, hm, .awaitsTc hr (hc.imp And.left (.imp (fun ⟨hp, _, ha, _⟩ => ⟨hp, ha⟩) (.imp_right And.left)))⟩
  next hpc =>
    rw [hpc] at hm
    exact ⟨_, hm, .ends hr (.inr (.inl hc))⟩
  next => exact hc.elim

theorem placed_of_readCoupling {s : State} (hc : readCoupling s) (hcmd : s.seq.cmd ≠ .singleWrite)
    (hr : s.seq.pc < 5 → s.reg.isr.rxne = false) : ∃ m, currentMicro s = some m ∧ Placed s m := by
  obtain ⟨w, sub, o, d, ho, hprog⟩ := program_of_read hcmd
  have hm : currentMicro s = (program s.seq)[s.seq.pc]? := rfl
  rw [hprog] at hm
  unfold readCoupling at hc
  split at hc
  next hpc =>
    rw [hpc] at hm
    exact ⟨_, hm, .opens ⟨_, .inl rfl⟩ hc⟩
  next hpc =>
    rw [hpc] at hm
    refine ⟨_, hm, .awaitsTxis (hr (by omega)) ?_⟩
    obtain ⟨hp | hp, _⟩ | ⟨hp, _⟩ := hc <;> simp [hp]
  next hpc =>
    rw [hpc] at hm
    exact ⟨_, hm, .sends _ hc.1⟩
  next hpc =>
    rw [hpc] at hm
    exact ⟨_, hm, .awaitsTc (hr (by omega))
      (hc.imp And.left (.imp (fun ⟨hp, _, ha, _⟩ => ⟨hp, ha⟩) (.imp_right And.left)))⟩
  next hpc =>
    rw [hpc] at hm
    exact ⟨_, hm, .opens ho ((State.quiescent_iff s).2 (.inr hc))⟩
  next hpc =>
    rw [hpc] at hm
    refine ⟨_, hm, .awaitsRxne ?_⟩
    obtain ⟨hp | hp, _, _, haddr⟩ | ⟨hp, _, hfull, _⟩ | ⟨hp, _⟩ | ⟨⟨hp, _⟩, _⟩ := hc
    · exact .inl ⟨hp, (haddr hp).1⟩
    · exact .inr (.inl hp)
    · exact .inr (.inr (.inl ⟨hp, hfull⟩))
    · exact .inr (.inr (.inr hp))
    · exact .inr (.inr (.inr hp))
  next hpc =>
    rw [hpc] at hm
    refine ⟨_, hm, .reads d hc.1 ?_⟩
    obtain ⟨_, ⟨hp, _⟩ | ⟨⟨hp, _⟩ | hp, hlast⟩⟩ := hc
    · exact .inl hp
    · exact .inr (.inl hp)
    · exact .inr (.inr ⟨hp, hlast⟩)
  next hpc =>
    rw [hpc] at hm
    exact ⟨_, hm, .ends hc.1 (hc.2.imp And.left .inr)⟩
  next => exact hc.elim

/-- A command in progress is at a micro-step of its program, with the controller where that micro-step may find it (R88). -/
theorem placed_of_engineCoupling {s : State} (hc : engineCoupling s) (hb : s.seq.status = .busy) :
    ∃ m, currentMicro s = some m ∧ Placed s m := by
  simp only [engineCoupling, hb] at hc
  obtain ⟨hshape, hearly⟩ := hc
  cases hcmd : s.seq.cmd with
  | singleWrite =>
    simp only [hcmd] at hshape
    exact placed_of_writeCoupling hshape.1 hcmd hshape.2
  | singleRead | burstRead =>
    simp only [hcmd] at hshape
    exact placed_of_readCoupling hshape.1 (by simp [hcmd]) fun h => (hearly h).1

/-- While the controller sends a byte, nothing has been received and the sequencer waits (R95 to R97). -/
theorem Placed.waits_of_sending {s : State} {m : Micro} (h : Placed s m) (hp : s.ctl.phase = .addr ∨ s.ctl.phase = .txSend) :
    s.reg.isr.rxne = false ∧ ∃ f, m = .wait f := by
  cases h with
  | opens _ hq => rcases (State.quiescent_iff s).1 hq with h | h <;> simp [h] at hp
  | awaitsTxis hr | awaitsTc hr => exact ⟨hr, _, rfl⟩
  | sends b h => simp [h] at hp
  | awaitsRxne h => rcases h with ⟨_, hr⟩ | h | ⟨h, _⟩ | h <;> simp_all
  | reads d hr h => rcases h with h | h | ⟨h, _⟩ <;> simp [h] at hp
  | ends _ h => rcases h with h | h | h <;> simp [h] at hp

theorem Placed.quiescent_of_wrCr2 {s : State} {m : Micro} {v : Word} (h : Placed s m) (hm : m = .wrCr2 v ∨ m = .wrCr2Burst v) :
    s.quiescent = true := by
  cases h with
  | opens _ hq => exact hq
  | _ => simp at hm

theorem Placed.txNeed_of_wrTx {s : State} {b : Byte} (h : Placed s (.wrTx b)) : s.ctl.phase = .txNeed := by
  cases h with
  | opens hm => simp at hm
  | sends _ hp => exact hp

theorem Placed.rxne_of_rdRx {s : State} {d : RxDest} (h : Placed s (.rdRx d)) : s.reg.isr.rxne = true := by
  cases h with
  | opens hm => simp at hm
  | reads _ hr => exact hr

theorem State.EngineInv.placed {s : State} {m : Micro} (hi : s.EngineInv) (hb : s.seq.status = .busy)
    (hm : currentMicro s = some m) : Placed s m := by
  obtain ⟨m', hm', hplaced⟩ := placed_of_engineCoupling hi.coupling hb
  obtain rfl : m' = m := Option.some.inj (hm'.symm.trans hm)
  exact hplaced

end Sys2Proof.Machine
end

-- Family 41_controller_fsm.md, part four: both agents at once.
section
/-! Where both agents have a step (R76, R100): the sequencer polls, or a received byte lets it through beside the controller's end
step; obligation O47. -/

namespace Sys2Proof.Machine

/-! ### Where both agents have a step -/

/-- A controller that has a step is neither quiescent nor waiting for a byte to send (R76, R78). -/
theorem phase_of_controllerStep {s t : State} (h : controllerStep s = some t) :
    s.quiescent = false ∧ s.ctl.phase ≠ .txNeed := by
  rw [State.quiescent_eq_false_iff]
  rcases controllerStep_cases h with ⟨hp, _⟩ | ⟨hp, _⟩ | ⟨hp, _⟩ | ⟨hp, _⟩ <;> simp [hp]

/-- The flag a WAIT finds set says where the controller is (R87), RXNE aside. -/
theorem phase_of_flagSet {s : State} {f : WaitFlag} (hf : PhaseFlags s) (h : flagSet f s.reg.isr.word = true) :
    f = .txis ∧ s.ctl.phase = .txNeed ∨ f = .tc ∧ s.ctl.phase = .tcHold ∨ f = .rxne ∧ s.reg.isr.rxne = true := by
  cases f with
  | txis => exact .inl ⟨rfl, hf.txis.1 (by simpa using h)⟩
  | tc => exact .inr (.inl ⟨rfl, hf.tc.1 (by simpa using h)⟩)
  | rxne => exact .inr (.inr ⟨rfl, by simpa using h⟩)

/-- With a received byte waiting the controller has one step at most, the end step (R81, R82). -/
theorem Placed.phase_of_rxne {s b : State} {m : Micro} (h : Placed s m) (hr : s.reg.isr.rxne = true)
    (hb : controllerStep s = some b) : s.ctl.phase = .endPhase := by
  rcases controllerStep_cases hb with ⟨hp, _⟩ | ⟨hp, _⟩ | ⟨_, hr', _⟩ | ⟨hp, _⟩
  · simp [(h.waits_of_sending (.inl hp)).1] at hr
  · simp [(h.waits_of_sending (.inr hp)).1] at hr
  · simp [hr'] at hr
  · exact hp

/-! ### The end step beside the micro-steps that only a received byte lets through -/

theorem endStep_setSeq (s : State) (q : Seq) : endStep (s.setSeq q) = (endStep s).setSeq q := by
  cases ha : s.ctl.autoend <;> simp [endStep, ha] <;> rfl

theorem endStep_onRxRead (s : State) :
    endStep (s.setIsr s.reg.isr.onRxRead) = (endStep s).setIsr (endStep s).reg.isr.onRxRead := by
  cases ha : s.ctl.autoend <;> simp [endStep, ha] <;> rfl

theorem endStep_writeMem (s : State) (a : Nat) (b : Byte) : endStep (s.writeMem a b) = (endStep s).writeMem a b := by
  cases ha : s.ctl.autoend <;> simp [endStep, ha] <;> rfl

theorem endStep_keeps (s : State) :
    (endStep s).seq = s.seq ∧ (endStep s).reg.rxdata = s.reg.rxdata ∧ (endStep s).reg.isr.rxne = s.reg.isr.rxne := by
  unfold endStep
  split <;> exact ⟨rfl, rfl, rfl⟩

/-! ### The micro-steps that find their flag -/

theorem sequencerStep_of_wait {s : State} {f : WaitFlag} (hb : s.seq.status = .busy) (hm : currentMicro s = some (.wait f))
    (hf : flagSet f s.reg.isr.word = true) : sequencerStep s = some (s.setPc (s.seq.pc + 1)) := by
  simp [sequencerStep, hb, hm, microStep, microWait, readIsr, hf]

theorem sequencerStep_of_result {s : State} (hb : s.seq.status = .busy) (hm : currentMicro s = some (.rdRx .result))
    (hr : s.reg.isr.rxne = true) :
    sequencerStep s =
      some ((s.setIsr s.reg.isr.onRxRead).setSeq { s.seq with result := some s.reg.rxdata, pc := s.seq.pc + 1 }) := by
  simp [sequencerStep, hb, hm, microStep, microRdRxResult, readRxdr, hr]

theorem sequencerStep_of_buffer {s : State} (hb : s.seq.status = .busy) (hm : currentMicro s = some (.rdRx .buffer))
    (hr : s.reg.isr.rxne = true) :
    sequencerStep s =
      some (((s.setIsr s.reg.isr.onRxRead).writeMem (s.seq.buf + s.seq.i.toNat) s.reg.rxdata).setSeq
        { s.seq with i := s.seq.i + 1#8,
                     pc := if (s.seq.i + 1#8).toNat < s.seq.n.toNat then s.seq.pc - 1 else s.seq.pc + 1 }) := by
  simp [sequencerStep, hb, hm, microStep, microRdRxBuffer, readRxdr, hr]

/-- Where the controller has a step, every micro-step but a poll is one that a received byte lets through (R135). -/
theorem Stepped.poll_or_received {s a b : State} (h : Stepped s a) (hi : s.EngineInv) (hbusy : s.seq.status = .busy)
    (hb : controllerStep s = some b) :
    a = s ∨ s.reg.isr.rxne = true ∧ ∃ m, currentMicro s = some m ∧ (m = .wait .rxne ∨ ∃ d, m = .rdRx d) := by
  obtain ⟨hactive, htx⟩ := phase_of_controllerStep hb
  have hopens : ∀ v, ¬ (currentMicro s = some (.wrCr2 v) ∨ currentMicro s = some (.wrCr2Burst v)) := by
    rintro v (hm | hm)
    · simp [(hi.placed hbusy hm).quiescent_of_wrCr2 (.inl rfl)] at hactive
    · simp [(hi.placed hbusy hm).quiescent_of_wrCr2 (.inr rfl)] at hactive
  cases h with
  | faulted f h =>
    rcases h with ⟨_, ⟨v, hm⟩, _⟩ | ⟨_, ⟨b, hm⟩, hp⟩ | ⟨_, ⟨d, hm⟩, hr⟩
    · exact absurd hm (hopens v)
    · exact absurd (hi.placed hbusy hm).txNeed_of_wrTx hp
    · simp [(hi.placed hbusy hm).rxne_of_rdRx] at hr
  | refused r h =>
    obtain ⟨v, hm, _⟩ := h
    exact absurd hm (hopens v)
  | started v hm => exact absurd (.inl hm) (hopens v)
  | startedBurst v hm => exact absurd (.inr hm) (hopens v)
  | passed f hm hf =>
    rcases phase_of_flagSet hi.inv.flags hf with ⟨_, hp⟩ | ⟨_, hp⟩ | ⟨rfl, hr⟩
    · exact absurd hp htx
    · exact absurd hp ((State.quiescent_eq_false_iff s).1 hactive).2
    · exact .inr ⟨hr, _, hm, .inl rfl⟩
  | polled => exact .inl rfl
  | sent b hm hp => exact absurd hp htx
  | result hm hr | buffered hm hr => exact .inr ⟨hr, _, hm, .inr ⟨_, rfl⟩⟩
  | finished hm hq => simp [hq] at hactive

/-- Settles O47: where the controller has a step, every micro-step but a poll is one that a received byte lets through, and the
controller's step beside those is the end step, which leaves RXDR, RXNE and the sequencer. -/
theorem agentsCommute : Obligations.AgentsCommute := by
  intro s a b hi ha hb
  obtain ⟨hbusy, hs⟩ := sequencerStep_stepped ha
  refine (hs.poll_or_received hi hbusy hb).imp_right fun ⟨hr, m, hm, hcase⟩ => ?_
  have hend := (hi.placed hbusy hm).phase_of_rxne hr hb
  obtain rfl : endStep s = b := Option.some.inj ((controllerStep_of_endPhase hend).symm.trans hb)
  obtain ⟨hseq, hrx, hrxne⟩ := endStep_keeps s
  have hbusy' : (endStep s).seq.status = .busy := hseq ▸ hbusy
  have hm' : currentMicro (endStep s) = some m := by rwa [currentMicro, hseq]
  have hr' : (endStep s).reg.isr.rxne = true := hrxne ▸ hr
  rcases hcase with rfl | ⟨_ | _, rfl⟩
  · obtain rfl := Option.some.inj ((sequencerStep_of_wait hbusy hm (by simpa using hr)).symm.trans ha)
    refine ⟨_, controllerStep_of_endPhase hend, ?_⟩
    rw [sequencerStep_of_wait hbusy' hm' (by simpa using hr'), State.setPc, State.setPc, endStep_setSeq, hseq]
  · obtain rfl := Option.some.inj ((sequencerStep_of_result hbusy hm hr).symm.trans ha)
    refine ⟨_, controllerStep_of_endPhase hend, ?_⟩
    rw [sequencerStep_of_result hbusy' hm' hr', endStep_setSeq, endStep_onRxRead, hseq, hrx]
  · obtain rfl := Option.some.inj ((sequencerStep_of_buffer hbusy hm hr).symm.trans ha)
    refine ⟨_, controllerStep_of_endPhase hend, ?_⟩
    rw [sequencerStep_of_buffer hbusy' hm' hr', endStep_setSeq, endStep_writeMem, endStep_onRxRead, hseq, hrx]

end Sys2Proof.Machine
end

-- Family 41_controller_fsm.md, part five: what stalls a command.
section
/-! A command stalls by a NACK and by nothing else (R84, R99, R119), move by move: obligation O48. -/

namespace Sys2Proof.Machine

/-- A command or a facade operation is presented, and nothing else (R102, R108). -/
theorem runRequest_presented {r : Request} {s t : State} (h : runRequest r s = .next t) (hr : ∀ a, r ≠ .access a) :
    Presented s t := by
  cases r with
  | command w buf buflen =>
    simp only [runRequest, decode] at h
    rcases decodeDescriptor_cases w buf buflen with hd | ⟨a7, reg, hd⟩ | ⟨a7, reg, val, hd⟩ | ⟨a7, reg, n, hd⟩ <;>
      rw [hd] at h <;> cases h
    · exact admitReserved_presented s
    · exact admitSingleRead_presented a7 reg s
    · exact admitSingleWrite_presented a7 reg val s
    · exact admitBurstRead_presented a7 reg n buf buflen s
  | access a => exact absurd rfl (hr a)
  | read slave reg =>
    obtain ⟨u, hu, hp⟩ := execFacadeRead_presented slave reg s
    cases hu.symm.trans h
    exact hp
  | write slave reg val =>
    obtain ⟨u, hu, hp⟩ := execFacadeWrite_presented slave reg val s
    cases hu.symm.trans h
    exact hp
  | readAll slave range buf buflen =>
    obtain ⟨u, hu, hp⟩ := execFacadeReadAll_presented slave range buf buflen s
    cases hu.symm.trans h
    exact hp

theorem State.EngineInv.setEnv {s : State} (hi : s.EngineInv) {e : Env} (he : e.inbox = s.env.inbox) : (s.setEnv e).EngineInv :=
  ⟨hi.inv.setEnv e, fun x hx => hi.commands x (he ▸ hx), hi.noFault, hi.coupling⟩

/-- While a byte was being sent the sequencer waited, so a NACK leaves it at a WAIT whose flag can be set no more (R99). -/
theorem State.EngineInv.stalls_of_nacked {s t : State} (hi : s.EngineInv) (hb : s.seq.status = .busy)
    (hp : s.ctl.phase = .addr ∨ s.ctl.phase = .txSend) (hf : PhaseFlags t) (hseq : t.seq = s.seq)
    (hrxne : t.reg.isr.rxne = s.reg.isr.rxne) (hn : t.nacked) : ∃ f, t.stalledAt f := by
  obtain ⟨m, hm, hplaced⟩ := placed_of_engineCoupling hi.coupling hb
  obtain ⟨hr, f, rfl⟩ := hplaced.waits_of_sending hp
  have hclear : flagSet f t.reg.isr.word = false := by
    by_contra hset
    rcases phase_of_flagSet hf (Bool.not_eq_false _ ▸ hset) with ⟨_, h⟩ | ⟨_, h⟩ | ⟨_, h⟩
    · simp [hn.1] at h
    · simp [hn.1] at h
    · simp [hrxne, hr] at h
  exact ⟨f, hseq ▸ hb, by rwa [currentMicro, hseq], hclear, hn⟩

theorem trace_ends_nacked (l : List BusEvent) (ev : BusEvent) :
    ∃ before, l ++ [ev, .sNack, .stop] = before ++ [.sNack, .stop] := ⟨l ++ [ev], by simp⟩

/-- Only a NACK takes the controller to Idle from a phase that has not ended (R84). -/
theorem ControllerStepped.stalls {s t : State} (h : ControllerStepped s t) (hi : s.EngineInv) (hb : s.seq.status = .busy)
    (hend : s.ctl.phase ≠ .endPhase) (hidle : t.ctl.phase = .idle) : ∃ f, t.stalledAt f := by
  have hf := h.phaseFlags hi.inv.flags
  cases h with
  | addressNacked e hp => exact hi.stalls_of_nacked hb (.inl hp) hf rfl rfl ⟨rfl, rfl, rfl, trace_ends_nacked _ _⟩
  | sentNacked e hp => exact hi.stalls_of_nacked hb (.inr hp) hf rfl rfl ⟨rfl, rfl, rfl, trace_ends_nacked _ _⟩
  | receivedMore e b hp => simp [hp] at hidle
  | stopped hp | held hp => exact absurd hp hend
  | _ => simp at hidle

/-- A command stalls with the controller's step only where that draws a NACK: the STOP of a read comes when its last byte waits. -/
theorem ControllerStepped.nack_of_stalledAt {s t : State} {f : WaitFlag} (h : ControllerStepped s t) (hi : s.EngineInv)
    (ht : t.stalledAt f) : ∃ ev, t.trace = s.trace ++ [ev, .sNack, .stop] := by
  obtain ⟨hb, hm, hf, hidle, _⟩ := ht
  cases h with
  | addressNacked | sentNacked => exact ⟨_, rfl⟩
  | stopped hp ha =>
    cases hi.placed hb hm with
    | opens hm => simp at hm
    | awaitsTxis _ h => rcases h with h | h | h | h <;> simp [hp] at h
    | awaitsTc _ h => rcases h with h | ⟨_, h⟩ | h | h <;> simp_all
    | awaitsRxne h => rcases h with ⟨h, _⟩ | h | ⟨_, h⟩ | h <;> simp_all [Isr.onStop]
  | receivedMore e b hp => simp [hp] at hidle
  | _ => simp at hidle

/-- No micro-step leads into a stall: after a WAIT and after an RDRX comes no WAIT, but in the loop of a burst whose controller still
has bytes to receive. -/
theorem Stepped.stalledAt {s t : State} {f : WaitFlag} (h : Stepped s t) (hi : s.EngineInv) (hb : s.seq.status = .busy)
    (ht : t.stalledAt f) : s.stalledAt f := by
  obtain ⟨hbusy, hwait, _, hidle, _⟩ := id ht
  cases h with
  | faulted | refused | polled => exact ht
  | started | startedBurst | sent => simp at hidle
  | passed f' hm =>
    have hpc := pc_of_wait hm
    have hpc' := pc_of_wait hwait
    simp only [State.setPc_seq] at hpc'
    omega
  | result hm =>
    have hpc := pc_of_rdRx hm
    have hpc' := pc_of_wait hwait
    simp only [State.setSeq_seq] at hpc'
    omega
  | buffered hm =>
    obtain ⟨hcmd, hpc⟩ := currentMicro_eq_buffer hm
    have hlast : s.seq.i.toNat + 1 = s.seq.n.toNat := by
      cases hi.placed hb hm with
      | opens hm => simp at hm
      | reads _ _ hp =>
        have hidle' : s.ctl.phase = .idle := hidle
        simpa [hidle', readTotal, hcmd] using hp
    have hnext : ¬ (s.seq.i + 1#8).toNat < s.seq.n.toNat := by bv_omega
    have hpc' := pc_of_wait hwait
    simp only [State.setSeq_seq, if_neg hnext] at hpc'
    omega
  | finished => simp at hbusy

theorem Presented.stalledAt {s t : State} {f : WaitFlag} (h : Presented s t) (ht : t.stalledAt f) : s.stalledAt f := by
  obtain ⟨hbusy, hwait, _⟩ := id ht
  cases h with
  | overlap | unbound | badRange => exact ht
  | rejected => simp at hbusy
  | read | write | burst => simpa [admitted] using pc_of_wait hwait

/-- Settles O48: a NACK comes while the sequencer waits; and no move but the controller's leads into a stall. -/
theorem nackStalls : Obligations.NackStalls := by
  refine ⟨fun s t hi hb hend hc hidle => (controllerStep_stepped hc).stalls hi hb hend hidle, fun s t f hi h ht => ?_⟩
  obtain ⟨_, _, e, he, rfl | ⟨hb, hs⟩ | hc | ⟨x, rest, hx, _, hrun⟩⟩ := step_next_cases h
  · exact .inl ht
  · exact .inl ((sequencerStep_stepped hs).2.stalledAt (hi.setEnv he) hb ht)
  · exact .inr ((controllerStep_stepped hc).nack_of_stalledAt (hi.setEnv he) ht)
  · exact .inl ((runRequest_presented hrun (hi.commands x (hx ▸ List.mem_cons_self))).stalledAt ht)

end Sys2Proof.Machine
end

-- Family 42_transactions.md, part one: the micro-steps, and what is Done.
section
/-! The sequencer's step where it is known which micro-step it is at and what the access of that micro-step finds (R88 to R93):
obligations O35 to O38. From them, who may step beside a command that is Done or has stalled: obligations O49 and O59. -/

namespace Sys2Proof.Machine

/-! ### The micro-step at `seq.pc` -/

theorem sequencerStep_of_currentMicro {s : State} {m : Micro} (hb : s.seq.status = .busy) (hm : currentMicro s = some m) :
    sequencerStep s = microStep m s := by
  simp [sequencerStep, hb, hm]

/-- A WAIT whose flag is 0 polls again (R90). -/
theorem sequencerStep_of_poll {s : State} {f : WaitFlag} (hb : s.seq.status = .busy) (hm : currentMicro s = some (.wait f))
    (hf : flagSet f s.reg.isr.word = false) : sequencerStep s = some s := by
  rw [sequencerStep_of_currentMicro hb hm]
  simp [microStep, microWait, readIsr, hf]
  rfl

/-- DONE in Idle and TcHold (R93). -/
theorem sequencerStep_of_done {s : State} (hb : s.seq.status = .busy) (hm : currentMicro s = some .done)
    (hq : s.quiescent = true) : sequencerStep s = some (s.setSeq { s.seq with status := .done }) := by
  rw [sequencerStep_of_currentMicro hb hm, microStep, if_pos hq]

/-- Settles O35: the flag of each WAIT is that of the ISR word a poll reads. -/
theorem waitPolls : Obligations.WaitPolls := by
  intro s f hb hm flag hflag
  obtain rfl : flag = flagSet f s.reg.isr.word := by
    rw [hflag]
    cases f <;> simp
  exact ⟨sequencerStep_of_wait hb hm, sequencerStep_of_poll hb hm⟩

/-- Settles O38: Idle and TcHold are the quiescent phases. -/
theorem doneHoldsUntilQuiescent : Obligations.DoneHoldsUntilQuiescent := by
  refine fun s hb hm => ⟨fun hp => sequencerStep_of_done hb hm ((State.quiescent_iff s).2 hp), fun hidle hhold => ?_⟩
  have hq : s.quiescent = false := (State.quiescent_eq_false_iff s).2 ⟨hidle, hhold⟩
  rw [sequencerStep_of_currentMicro hb hm, microStep, hq]
  rfl

/-! ### The micro-steps that write a register -/

/-- A write access that is accepted leaves the marks and the sequencer. -/
def Effect.KeepsSeq (s : State) (e : Effect Unit) : Prop := ∀ u v, e = .done u v → u.unmarked ∧ u.seq = s.seq

theorem writeCr2Start_keepsSeq {s : State} (hs : s.unmarked) (v : Word) : (writeCr2Start s v).KeepsSeq s := by
  rintro u _ hu
  rcases writeCr2Start_cases s v with ⟨h, _⟩ | ⟨h, _⟩ | ⟨h, _⟩ | ⟨h, _⟩ <;> cases hu.symm.trans h
  exact ⟨⟨(s.beginPhase_faults v).trans hs.1, (s.beginPhase_refused v).trans hs.2⟩, s.beginPhase_seq v⟩

theorem writeTxdr_keepsSeq {s : State} (hs : s.unmarked) (v : Word) : (writeTxdr s v).KeepsSeq s := by
  rintro u _ hu
  rcases writeTxdr_cases s v with ⟨h, _⟩ | ⟨h, _⟩ | ⟨h, _⟩ <;> cases hu.symm.trans h
  exact ⟨hs, rfl⟩

/-- A micro-step that issues the access of a register row: where the row marks the state so does the micro-step, else it is the
row's result with the sequencer moved on (R89, R91, R121). -/
theorem sequencerStep_of_writeLine {s t : State} {m : Micro} {e : Effect Unit} {q : Seq → Seq} (hb : s.seq.status = .busy)
    (hm : currentMicro s = some m) (hstep : microStep m s = some (e.commit s fun u _ => u.setSeq (q u.seq))) (hs : s.unmarked)
    (he : e.KeepsSeq s) (ht : writeLine s e = t) :
    (t.unmarked → sequencerStep s = some (t.setSeq (q s.seq))) ∧ (¬ t.unmarked → sequencerStep s = some t) := by
  subst ht
  rw [sequencerStep_of_currentMicro hb hm, hstep]
  cases e with
  | done u v =>
    obtain ⟨hu, hseq⟩ := he u v rfl
    exact ⟨fun _ => by rw [← hseq]; rfl, fun h => absurd hu h⟩
  | fault f => exact ⟨fun h => by simp [writeLine, hs.1, State.unmarked] at h, fun _ => rfl⟩
  | refuse r => exact ⟨fun h => by simp [writeLine, State.unmarked] at h, fun _ => rfl⟩

/-- Settles O36: WRCR2 and WRTX issue the very access that is the register row's whole effect. -/
theorem writingMicroSteps : Obligations.WritingMicroSteps := by
  intro s hb hs
  refine ⟨?_, ?_, fun b t hm ht => ?_⟩
  · rintro v i t hm rfl ht
    exact sequencerStep_of_writeLine (q := fun q => { q with pc := s.seq.pc + 1 }) hb hm rfl hs (writeCr2Start_keepsSeq hs v)
      (Host.Outcome.next.inj ((exec_wrCr2Start v s).symm.trans ht))
  · rintro v i t hm rfl ht
    exact sequencerStep_of_writeLine (q := fun q => { q with i := 0#8, pc := s.seq.pc + 1 }) hb hm rfl hs
      (writeCr2Start_keepsSeq hs v) (Host.Outcome.next.inj ((exec_wrCr2Start v s).symm.trans ht))
  · exact sequencerStep_of_writeLine (q := fun q => { q with pc := s.seq.pc + 1 }) hb hm rfl hs (writeTxdr_keepsSeq hs _)
      (Host.Outcome.next.inj ((exec_wrTxdr _ s).symm.trans ht))

/-! ### The micro-steps that read RXDR -/

theorem sequencerStep_of_rdRx_empty {s : State} {d : RxDest} (hb : s.seq.status = .busy) (hm : currentMicro s = some (.rdRx d))
    (hr : s.reg.isr.rxne = false) : sequencerStep s = some (s.raise .rxdrEmpty) := by
  rw [sequencerStep_of_currentMicro hb hm]
  cases d <;> simp [microStep, microRdRxResult, microRdRxBuffer, readRxdr, hr]

/-- Settles O37: the buffer's byte is read back from the address it was stored at, and no other address reads otherwise. -/
theorem readingMicroSteps : Obligations.ReadingMicroSteps := by
  rintro s hb isr rfl
  refine ⟨fun hm hr => sequencerStep_of_result hb hm hr, fun hm hr => ?_, fun d hm hr => sequencerStep_of_rdRx_empty hb hm hr⟩
  exact ⟨_, sequencerStep_of_buffer hb hm hr, rfl, rfl, rfl, rfl, rfl, rfl, Memory.read_write_same _ _ _,
    fun a ha => Memory.read_write_other _ _ _ _ ha⟩

/-! ### Steps beside a command that is Done or has stalled -/

/-- Where nothing is urgent and the controller has no step, the machine's step is the sequencer's. -/
theorem step_of_sequencer_alone {s t : State} (hs : s.unmarked) (hu : urgent s = false) (hq : sequencerStep s = some t)
    (hc : controllerStep s = none) : step s = .next t := by
  have hn : nextMover s = (some .sequencer, s) := by
    simp [nextMover, engineEnabled, hu, (sequencerStep_cases hq).1, hq, hc]
  rw [step_of_unmarked hs.1 hs.2, move, hn]
  exact engineMove_of_sequencerStep hu hq

/-- Settles O49: a NACK has left the controller Idle, so the sequencer alone has a step, its poll. -/
theorem stallIsForever : Obligations.StallIsForever := by
  rintro s f hf hr hu ⟨hb, hm, hflag, hidle, _⟩
  exact step_of_sequencer_alone ⟨hf, hr⟩ hu (sequencerStep_of_poll hb hm hflag)
    (controllerStep_of_quiescent ((State.quiescent_iff s).2 (.inl hidle)))

/-- Of the sequencer's steps DONE alone ends a command (R93, R140). -/
theorem Stepped.finished_of_done {s t : State} (h : Stepped s t) (hs : s.seq.status ≠ .done) (ht : t.seq.status = .done) :
    currentMicro s = some .done ∧ t.quiescent = true := by
  cases h with
  | finished hm hq => exact ⟨hm, hq⟩
  | started v | startedBurst v => exact absurd (by simpa using ht) hs
  | _ => exact absurd ht hs

/-- No request ends a command with Done: one that is presented is refused, rejected or admitted (R102). -/
theorem Executed.done_before {wf : Prop} {s t : State} (h : Executed wf s t) (ht : t.seq.status = .done) :
    s.seq.status = .done := by
  cases h with
  | presented h =>
    cases h with
    | overlap | unbound | badRange => exact ht
    | rejected | read | write | burst => simp [admitted] at ht
  | started v => simpa using ht
  | _ => exact ht

/-- Settles O59: only the sequencer's DONE leads to Done, and it is taken in Idle and TcHold, where the controller has no step. -/
theorem doneIsQuiescent : Obligations.DoneIsQuiescent := by
  intro s t h hs ht
  obtain ⟨e, rfl | hq | hc | hx⟩ := step_next_agent h
  · exact absurd ht hs
  · obtain ⟨hm, hquiet⟩ := hq.finished_of_done hs ht
    exact ⟨hm, (State.quiescent_iff t).1 hquiet, controllerStep_of_quiescent hquiet⟩
  · exact absurd (hc.seq_eq ▸ ht) hs
  · exact absurd (hx.done_before ht) hs

end Sys2Proof.Machine
end

-- Family 42_transactions.md, part two: a SINGLE_WRITE and a SINGLE_READ from admission to Done.
section
/-! The runs of the two single shapes (R95, R96) where the slave acknowledges and the controller goes first: two more rules for a step,
the runs from admission on, and obligations O54 and O55. The read's write phase is that of a burst (`subAddress_runs`). -/

namespace Sys2Proof.Machine

/-! ### Two more rules for a step -/

namespace State.Undisturbed

variable {s : State} {acks : List Ack} {sched : List Agent} (h : s.Undisturbed)
include h

/-- The transmit step of the first of two bytes, acknowledged (R79). -/
theorem step_transmitFirst {f : WaitFlag} (hm : currentMicro s = some (.wait f)) (hsched : s.env.sched = .controller :: sched)
    (hp : s.ctl.phase = .txSend) (hrem : s.ctl.rem = 2#8) (ha : s.env.acks = .ack :: acks) :
    step s = .next { s with
      reg := { s.reg with isr := s.reg.isr.onShift.onTxReady }
      ctl := { s.ctl with shift := s.reg.txdata, rem := 1#8, phase := .txNeed }
      trace := s.trace ++ [.mWrite s.reg.txdata, .sAck]
      env := { s.env with acks := acks, sched := sched } } := by
  refine h.step_controller hm hsched ?_
  simp [controllerStep, hp, transmitStep, State.drawAck, ha, State.byteAcked, hrem, State.emit, State.setEnv, State.setIsr,
    State.setCtl]

/-- RDRX to the result (R92). -/
theorem step_rdRxResult (hc : controllerStep s = none) (hm : currentMicro s = some (.rdRx .result)) (hr : s.reg.isr.rxne = true) :
    step s = .next { s with
      reg := { s.reg with isr := s.reg.isr.onRxRead }
      seq := { s.seq with result := some s.reg.rxdata, pc := s.seq.pc + 1 } } :=
  h.step_sequencer hc hm (by simp [microStep, microRdRxResult, readRxdr, hr]; rfl)

end State.Undisturbed

/-! ### SINGLE_WRITE -/

/-- After the address step (R77) the word of SINGLE_WRITE is R51's without START. -/
theorem clearStart_cr2Value_write_two (a7 : Addr7) :
    clearStart (cr2Value a7 .write 2#8 false) = 0x00020000#32 ||| (a7.setWidth 32 <<< 1) := by
  apply BitVec.eq_of_getLsbD_eq
  intro k hk
  interval_cases k <;> simp [clearStart, cr2Value, dirBit]

theorem currentMicro_of_singleWrite {s : State} {m : Micro} (hcmd : s.seq.cmd = .singleWrite)
    (hm : ([.wrCr2 (cr2Value s.seq.a7 .write 2#8 false), .wait .txis, .wrTx s.seq.reg, .wait .txis, .wrTx s.seq.val, .wait .tc,
      .done] : List Micro)[s.seq.pc]? = some m) : currentMicro s = some m := by
  simpa only [currentMicro, program, hcmd, subAddress] using hm

/-- `s` after the opening of a SINGLE_WRITE (R95): the controller asks for the first of two bytes. -/
def State.writeOpened (s : State) (acks : List Ack) (sched : List Agent) : State :=
  { s with
    reg := { s.reg with cr2 := clearStart (cr2Value s.seq.a7 .write 2#8 false)
                        isr := { s.reg.isr with txis := true, tc := false, busy := true } }
    ctl := { phase := .txNeed, sadd7 := s.seq.a7, rw := .write, rem := 2#8, autoend := false, shift := s.ctl.shift }
    seq := { s.seq with pc := 2 }
    trace := s.trace ++ [s.opener] ++ [.addrByte s.seq.a7 .write, .sAck]
    env := { s.env with acks := acks, sched := sched } }

open State.Undisturbed in
/-- The micro-steps at pc 0 and 1 of R95, with the controller's address step between them. -/
theorem State.Undisturbed.writeOpened_runs {s : State} (h : s.Undisturbed) (hf : PhaseFlags s) (hq : s.quiescent = true)
    (hcmd : s.seq.cmd = .singleWrite) (hpc : s.seq.pc = 0) {acks : List Ack} {sched : List Agent}
    (hacks : s.env.acks = .ack :: acks) (hsched : s.env.sched = .controller :: sched) :
    Runs 3 s (s.writeOpened acks sched) := by
  refine .cons (h.step_wrCr2 hf hq (currentMicro_of_singleWrite hcmd (by rw [hpc]; rfl)) (by decide)) ?_
  rw [hpc]
  refine .cons (step_address (f := .txis) (h.of_eq rfl rfl rfl rfl) (currentMicro_of_singleWrite hcmd rfl) hsched rfl hacks) ?_
  refine .cons (step_wait (f := .txis) (h.of_eq rfl rfl rfl rfl) rfl (currentMicro_of_singleWrite hcmd rfl)
    (flagSet_txis_word _)) ?_
  exact Runs.refl _

theorem State.Undisturbed.writeOpened {s : State} {acks : List Ack} {sched : List Agent} (h : s.Undisturbed) :
    (s.writeOpened acks sched).Undisturbed :=
  h.of_eq rfl rfl rfl rfl

/-- `s` after the first byte of a SINGLE_WRITE, its sub-address (R95): the controller asks for the second. -/
def State.firstByteSent (s : State) (acks : List Ack) (sched : List Agent) : State :=
  { s with
    reg := { s.reg with isr := { s.reg.isr with txe := true, txis := true }, txdata := s.seq.reg }
    ctl := { s.ctl with phase := .txNeed, rem := 1#8, shift := s.seq.reg }
    seq := { s.seq with pc := 4 }
    trace := s.trace ++ [.mWrite s.seq.reg, .sAck]
    env := { s.env with acks := acks, sched := sched } }

open State.Undisturbed in
/-- The micro-steps at pc 2 and 3 of R95, with the controller's transmit step between them. -/
theorem State.Undisturbed.firstByteSent_runs {s : State} (h : s.Undisturbed) (hp : s.ctl.phase = .txNeed)
    (hrem : s.ctl.rem = 2#8) (hcmd : s.seq.cmd = .singleWrite) (hpc : s.seq.pc = 2) {acks : List Ack} {sched : List Agent}
    (hacks : s.env.acks = .ack :: acks) (hsched : s.env.sched = .controller :: sched) :
    Runs 3 s (s.firstByteSent acks sched) := by
  refine .cons (h.step_wrTx hp (currentMicro_of_singleWrite hcmd (by rw [hpc]; rfl))) ?_
  rw [hpc]
  refine .cons (step_transmitFirst (f := .txis) (h.of_eq rfl rfl rfl rfl) (currentMicro_of_singleWrite hcmd rfl) hsched rfl hrem
    hacks) ?_
  refine .cons (step_wait (f := .txis) (h.of_eq rfl rfl rfl rfl) rfl (currentMicro_of_singleWrite hcmd rfl)
    (flagSet_txis_word _)) ?_
  exact Runs.refl _

theorem State.Undisturbed.firstByteSent {s : State} {acks : List Ack} {sched : List Agent} (h : s.Undisturbed) :
    (s.firstByteSent acks sched).Undisturbed :=
  h.of_eq rfl rfl rfl rfl

/-- `s` after the second byte of a SINGLE_WRITE, its value, and the end of the command (R95): the bus is held. -/
def State.lastByteSent (s : State) (acks : List Ack) (sched : List Agent) : State :=
  { s with
    reg := { s.reg with isr := { s.reg.isr with txe := true, txis := false, tc := true }, txdata := s.seq.val }
    ctl := { s.ctl with phase := .tcHold, rem := 0#8, shift := s.seq.val }
    seq := { s.seq with pc := 6, status := .done }
    trace := s.trace ++ [.mWrite s.seq.val, .sAck]
    env := { s.env with acks := acks, sched := sched } }

open State.Undisturbed in
/-- The micro-steps at pc 4 to 6 of R95, with the controller's transmit and end steps among them. -/
theorem State.Undisturbed.lastByteSent_runs {s : State} (h : s.Undisturbed) (hp : s.ctl.phase = .txNeed)
    (hrem : s.ctl.rem = 1#8) (ha : s.ctl.autoend = false) (hcmd : s.seq.cmd = .singleWrite) (hpc : s.seq.pc = 4)
    {acks : List Ack} {sched : List Agent} (hacks : s.env.acks = .ack :: acks)
    (hsched : s.env.sched = .controller :: .controller :: sched) : Runs 5 s (s.lastByteSent acks sched) := by
  refine .cons (h.step_wrTx hp (currentMicro_of_singleWrite hcmd (by rw [hpc]; rfl))) ?_
  rw [hpc]
  refine .cons (step_transmitLast (f := .tc) (h.of_eq rfl rfl rfl rfl) (currentMicro_of_singleWrite hcmd rfl) hsched rfl hrem
    hacks) ?_
  refine .cons (step_endHold (f := .tc) (h.of_eq rfl rfl rfl rfl) (currentMicro_of_singleWrite hcmd rfl) rfl rfl ha) ?_
  refine .cons (step_wait (f := .tc) (h.of_eq rfl rfl rfl rfl) rfl (currentMicro_of_singleWrite hcmd rfl) (flagSet_tc_word _)) ?_
  refine .cons (step_done (h.of_eq rfl rfl rfl rfl) rfl (currentMicro_of_singleWrite hcmd rfl)) ?_
  exact Runs.refl _

/-- The run of R95 whole. -/
theorem State.Undisturbed.singleWrite_runs {s : State} (h : s.Undisturbed) (hf : PhaseFlags s) (hq : s.quiescent = true)
    (hcmd : s.seq.cmd = .singleWrite) (hpc : s.seq.pc = 0) {acks : List Ack} {sched : List Agent}
    (hacks : s.env.acks = .ack :: .ack :: .ack :: acks)
    (hsched : s.env.sched = .controller :: .controller :: .controller :: .controller :: sched) :
    Runs 11 s (((s.writeOpened (.ack :: .ack :: acks) (.controller :: .controller :: .controller :: sched)).firstByteSent
      (.ack :: acks) (.controller :: .controller :: sched)).lastByteSent acks sched) :=
  ((h.writeOpened_runs hf hq hcmd hpc hacks hsched).trans (h.writeOpened.firstByteSent_runs rfl rfl hcmd rfl rfl rfl)).trans
    (h.writeOpened.firstByteSent.lastByteSent_runs rfl rfl rfl hcmd rfl rfl rfl)

theorem exec_singleWrite_admitted {s : State} (hb : s.seq.status ≠ .busy) (a7 : Addr7) (reg val : Byte) :
    exec (.singleWrite a7 reg val) s = .next (s.setSeq { admitted s.seq .singleWrite a7 reg with val := val }) := by
  simp [exec, execSingleWrite, admitSingleWrite, unlessBusy, hb]

/-- An instruction that is presented to an unmarked state runs as its row (R102). -/
theorem step_placeRequest_encode {s : State} {i : Instr} (hs : s.unmarked) (hwf : i.wf = true)
    (hi : isAccess (encode s.params.base i) = false) : step (s.placeRequest (encode s.params.base i)) = exec i s :=
  (step_placeRequest hs hi).trans (runRequest_encode hwf s)

/-- Settles O54: admission, then the run of the admitted command; the launch premises are not needed for it. -/
theorem singleWriteRuns : Obligations.SingleWriteRuns := by
  rintro s a7 reg val acks sched _ ⟨hinv, _, hfaults, hcoupling⟩ hwaits hrefused hidle hacks hsched
  obtain ⟨hq, _⟩ := engineCoupling_of_not_busy hcoupling hidle
  have hadmit := (step_placeRequest_encode (i := .singleWrite a7 reg val) ⟨hfaults, hrefused⟩ rfl rfl).trans
    (exec_singleWrite_admitted hidle a7 reg val)
  have hwrite : (s.setSeq { admitted s.seq .singleWrite a7 reg with val := val }).Undisturbed :=
    ⟨⟨hfaults, hrefused⟩, rfl, hwaits⟩
  have hrun := hwrite.singleWrite_runs (hinv.setSeq _).flags hq rfl rfl hacks hsched
  refine ⟨_, Runs.cons hadmit hrun, rfl, rfl, rfl, rfl, clearStart_cr2Value_write_two a7, rfl, hfaults, hrefused, ?_⟩
  simp only [State.lastByteSent, State.firstByteSent, State.writeOpened, List.append_assoc]
  rfl

/-! ### SINGLE_READ -/

theorem currentMicro_of_singleRead {s : State} {m : Micro} (hcmd : s.seq.cmd = .singleRead)
    (hm : ([.wrCr2 (cr2Value s.seq.a7 .write 1#8 false), .wait .txis, .wrTx s.seq.reg, .wait .tc,
      .wrCr2 (cr2Value s.seq.a7 .read 1#8 true), .wait .rxne, .rdRx .result, .done] : List Micro)[s.seq.pc]? = some m) :
    currentMicro s = some m := by
  simpa only [currentMicro, program, hcmd, subAddress] using hm

/-- `s` after the read phase of a SINGLE_READ, which brought `b` (R96). -/
def State.singleReadEnded (s : State) (b : Byte) (acks : List Ack) (bytes : List Byte) (sched : List Agent) : State :=
  { s with
    reg := { s.reg with cr2 := clearStart (cr2Value s.seq.a7 .read 1#8 true)
                        isr := { s.reg.isr with rxne := false, stopf := true, tc := false, busy := false }
                        rxdata := b }
    ctl := { phase := .idle, sadd7 := s.seq.a7, rw := .read, rem := 0#8, autoend := true, shift := s.ctl.shift }
    seq := { s.seq with result := some b, pc := 7, status := .done }
    trace := s.trace ++ [s.opener] ++ [.addrByte s.seq.a7 .read, .sAck] ++ [.sData b, .mNack] ++ [.stop]
    env := { s.env with acks := acks, bytes := bytes, sched := sched } }

open State.Undisturbed in
/-- The micro-steps at pc 4 to 7, with the controller's address, receive and end steps among them. -/
theorem State.Undisturbed.singleReadEnded_runs {s : State} (h : s.Undisturbed) (hf : PhaseFlags s) (hq : s.quiescent = true)
    (hr : s.reg.isr.rxne = false) (hcmd : s.seq.cmd = .singleRead) (hpc : s.seq.pc = 4) {b : Byte} {acks : List Ack}
    {bytes : List Byte} {sched : List Agent} (hacks : s.env.acks = .ack :: acks) (hbytes : s.env.bytes = b :: bytes)
    (hsched : s.env.sched = .controller :: .controller :: .controller :: sched) :
    Runs 7 s (s.singleReadEnded b acks bytes sched) := by
  refine .cons (h.step_wrCr2 hf hq (currentMicro_of_singleRead hcmd (by rw [hpc]; rfl)) (by decide)) ?_
  rw [hpc]
  refine .cons (step_address (f := .rxne) (h.of_eq rfl rfl rfl rfl) (currentMicro_of_singleRead hcmd rfl) hsched rfl hacks) ?_
  refine .cons (step_receiveLast (f := .rxne) (h.of_eq rfl rfl rfl rfl) (currentMicro_of_singleRead hcmd rfl) rfl rfl hr rfl
    hbytes) ?_
  refine .cons (step_endStop (f := .rxne) (h.of_eq rfl rfl rfl rfl) (currentMicro_of_singleRead hcmd rfl) rfl rfl rfl) ?_
  refine .cons (step_wait (f := .rxne) (h.of_eq rfl rfl rfl rfl) rfl (currentMicro_of_singleRead hcmd rfl)
    (flagSet_rxne_word _)) ?_
  refine .cons (step_rdRxResult (h.of_eq rfl rfl rfl rfl) rfl (currentMicro_of_singleRead hcmd rfl) rfl) ?_
  refine .cons (step_done (h.of_eq rfl rfl rfl rfl) rfl (currentMicro_of_singleRead hcmd rfl)) ?_
  exact Runs.refl _

theorem exec_singleRead_admitted {s : State} (hb : s.seq.status ≠ .busy) (a7 : Addr7) (reg : Byte) :
    exec (.singleRead a7 reg) s = .next (s.setSeq (admitted s.seq .singleRead a7 reg)) := by
  simp [exec, execSingleRead, admitSingleRead, unlessBusy, hb]

/-- Settles O55: admission, the write phase with the sub-address, the read phase; the launch premises are not needed for it. -/
theorem singleReadRuns : Obligations.SingleReadRuns := by
  rintro s a7 reg b acks bytes sched _ ⟨hinv, _, hfaults, hcoupling⟩ hwaits hrefused hidle hacks hbytes hsched
  obtain ⟨hq, hr⟩ := engineCoupling_of_not_busy hcoupling hidle
  have hadmit := (step_placeRequest_encode (i := .singleRead a7 reg) ⟨hfaults, hrefused⟩ rfl rfl).trans
    (exec_singleRead_admitted hidle a7 reg)
  have hread : (s.setSeq (admitted s.seq .singleRead a7 reg)).Undisturbed := ⟨⟨hfaults, hrefused⟩, rfl, hwaits⟩
  have hwrite := hread.subAddress_runs (hinv.setSeq _).flags hq nofun rfl hacks hsched
  have hend := hread.subAddressed.singleReadEnded_runs (hwrite.inv (hinv.setSeq _)).flags rfl hr rfl rfl rfl hbytes rfl
  refine ⟨_, Runs.cons hadmit (hwrite.trans hend), rfl, rfl, rfl, rfl, rfl, rfl,
    (clearStart_cr2Value_read a7 1#8).trans rfl, rfl, hfaults, hrefused, ?_⟩
  simp only [State.singleReadEnded, State.subAddressed, List.append_assoc]
  rfl

end Sys2Proof.Machine
end

-- Family 42_transactions.md, part three: the controller's side of the coupling.
section
/-! SUPPORT. Where each step of the controller leads from each place of a command (R77 to R84, R95 to R97, R99), and from it that the
controller's steps keep the engine's coupling. -/

namespace Sys2Proof.Machine

/-! ### From each place of a phase -/

namespace ControllerStepped

variable {s t : State} {k : Nat} (h : ControllerStepped s t)
include h

/-- The controller has a step in four phases alone (R76). -/
theorem phase_cases : s.ctl.phase = .addr ∨ s.ctl.phase = .txSend ∨ s.ctl.phase = .rxRecv ∨ s.ctl.phase = .endPhase := by
  cases h <;> simp [*]

/-- The byte that waits in RXDR is the receive step's alone to change (R80). -/
theorem rxne_eq (hp : s.ctl.phase ≠ .rxRecv) : t.reg.isr.rxne = s.reg.isr.rxne := by
  cases h with
  | receivedLast _ _ hp' | receivedMore _ _ hp' => exact absurd hp' hp
  | _ => rfl

/-- The address of a write phase: answered, or the NACK (R77, R84). -/
theorem of_addr_write (hp : s.ctl.phase = .addr) (hw : writeLeft s.ctl k) :
    t.ctl.phase = .txNeed ∧ writeLeft t.ctl k ∨ t.nacked := by
  cases h with
  | addressNacked => exact .inr ⟨rfl, rfl, rfl, trace_ends_nacked _ _⟩
  | addressedWrite => exact .inl ⟨rfl, hw⟩
  | addressedRead _ _ hr => simp [writeLeft, hr] at hw
  | _ => simp_all

/-- A byte of a write phase that is not its last (R79, R84). -/
theorem of_txSend_more (hp : s.ctl.phase = .txSend) (hw : writeLeft s.ctl (k + 2)) :
    t.ctl.phase = .txNeed ∧ writeLeft t.ctl (k + 1) ∨ t.nacked := by
  obtain ⟨hrw, ha, hrem⟩ := hw
  cases h with
  | sentNacked => exact .inr ⟨rfl, rfl, rfl, trace_ends_nacked _ _⟩
  | sentLast _ _ h0 => bv_omega
  | sentMore => exact .inl ⟨rfl, hrw, ha, by bv_omega⟩
  | _ => simp_all

/-- The last byte of a write phase (R79, R84). -/
theorem of_txSend_last (hp : s.ctl.phase = .txSend) (hw : writeLeft s.ctl 1) :
    t.ctl.phase = .endPhase ∧ writeLeft t.ctl 0 ∨ t.nacked := by
  obtain ⟨hrw, ha, hrem⟩ := hw
  cases h with
  | sentNacked => exact .inr ⟨rfl, rfl, rfl, trace_ends_nacked _ _⟩
  | sentLast _ _ h0 => exact .inl ⟨rfl, hrw, ha, by bv_omega⟩
  | sentMore _ _ h0 => bv_omega
  | _ => simp_all

/-- The end of a write phase holds the bus (R83). -/
theorem of_endPhase_write (hp : s.ctl.phase = .endPhase) (hw : writeLeft s.ctl k) : t.ctl.phase = .tcHold := by
  cases h with
  | stopped _ ha => simp [hw.2.1] at ha
  | held => rfl
  | _ => simp_all

/-- The address of a read phase: answered, or the NACK (R77, R84). -/
theorem of_addr_read (hp : s.ctl.phase = .addr) (hr : readPhase s.ctl) :
    t.ctl.phase = .rxRecv ∧ readPhase t.ctl ∧ t.ctl.rem = s.ctl.rem ∨ t.nacked := by
  cases h with
  | addressNacked => exact .inr ⟨rfl, rfl, rfl, trace_ends_nacked _ _⟩
  | addressedWrite _ _ hw => simp [readPhase, hw] at hr
  | addressedRead => exact .inl ⟨rfl, hr, rfl⟩
  | _ => simp_all

/-- A byte of a read phase, its last or not (R80). -/
theorem of_rxRecv (hp : s.ctl.phase = .rxRecv) (hr : readPhase s.ctl) (hrem : s.ctl.rem ≠ 0#8) :
    s.reg.isr.rxne = false ∧ t.reg.isr.rxne = true ∧ readPhase t.ctl ∧
      (t.ctl.phase = .rxRecv ∧ t.ctl.rem.toNat + 1 = s.ctl.rem.toNat ∨ t.ctl.phase = .endPhase ∧ s.ctl.rem.toNat = 1) := by
  cases h with
  | receivedLast _ _ _ hempty h0 => exact ⟨hempty, rfl, hr, .inr ⟨rfl, by bv_omega⟩⟩
  | receivedMore _ _ _ hempty h0 => exact ⟨hempty, rfl, hr, .inl ⟨hp, by bv_omega⟩⟩
  | _ => simp_all

/-- The end of a read phase frees the bus (R82). -/
theorem of_endPhase_read (hp : s.ctl.phase = .endPhase) (hr : readPhase s.ctl) : t.ctl.phase = .idle := by
  cases h with
  | stopped => rfl
  | held _ ha => simp [hr.2] at ha
  | _ => simp_all

end ControllerStepped

/-! ### The coupling -/

/-- A phase in which the controller has no step rules out that it took one. -/
theorem ControllerStepped.false_of_phase {s t : State} (h : ControllerStepped s t)
    (hp : s.ctl.phase = .idle ∨ s.ctl.phase = .tcHold ∨ s.ctl.phase = .txNeed) : False := by
  rcases h.phase_cases with h | h | h | h <;> simp [h] at hp

theorem ControllerStepped.false_of_quiescent {s t : State} (h : ControllerStepped s t) (hq : s.quiescent = true) : False :=
  h.false_of_phase (((State.quiescent_iff s).1 hq).imp_right .inl)

theorem ControllerStepped.false_of_nacked {s t : State} (h : ControllerStepped s t) (hn : s.nacked) : False :=
  h.false_of_phase (.inl hn.1)

/-- The first place of a write phase of `k` bytes, at its WAIT for TXIS. -/
theorem ControllerStepped.keeps_opening {s t : State} {k : Nat} (h : ControllerStepped s t)
    (hc : (s.ctl.phase = .addr ∨ s.ctl.phase = .txNeed) ∧ writeLeft s.ctl k ∨ s.nacked) :
    (t.ctl.phase = .addr ∨ t.ctl.phase = .txNeed) ∧ writeLeft t.ctl k ∨ t.nacked := by
  obtain ⟨hp | hp, hw⟩ | hn := hc
  · exact (h.of_addr_write hp hw).imp_left fun ⟨hp', hw'⟩ => ⟨.inr hp', hw'⟩
  · exact (h.false_of_phase (.inr (.inr hp))).elim
  · exact (h.false_of_nacked hn).elim

/-- The last place of a write phase, at its WAIT for TC. -/
theorem ControllerStepped.keeps_ending {s t : State} (h : ControllerStepped s t)
    (hc : s.ctl.phase = .txSend ∧ writeLeft s.ctl 1 ∨ s.ctl.phase = .endPhase ∧ writeLeft s.ctl 0 ∨ s.ctl.phase = .tcHold ∨
      s.nacked) :
    t.ctl.phase = .txSend ∧ writeLeft t.ctl 1 ∨ t.ctl.phase = .endPhase ∧ writeLeft t.ctl 0 ∨ t.ctl.phase = .tcHold ∨
      t.nacked := by
  obtain ⟨hp, hw⟩ | ⟨hp, hw⟩ | hp | hn := hc
  · exact .inr ((h.of_txSend_last hp hw).imp_right .inr)
  · exact .inr (.inr (.inl (h.of_endPhase_write hp hw)))
  · exact (h.false_of_phase (.inr (.inl hp))).elim
  · exact (h.false_of_nacked hn).elim

theorem ControllerStepped.keeps_writeCoupling {s t : State} (h : ControllerStepped s t) (hc : writeCoupling s) :
    writeCoupling t := by
  unfold writeCoupling at hc ⊢
  rw [h.seq_eq]
  split at hc
  next => exact (h.false_of_quiescent hc).elim
  next => exact h.keeps_opening hc
  next => exact (h.false_of_phase (.inr (.inr hc.1))).elim
  next =>
    obtain ⟨hp, hw⟩ | ⟨hp, _⟩ | hn := hc
    · exact .inr (h.of_txSend_more (k := 0) hp hw)
    · exact (h.false_of_phase (.inr (.inr hp))).elim
    · exact (h.false_of_nacked hn).elim
  next => exact (h.false_of_phase (.inr (.inr hc.1))).elim
  next => exact h.keeps_ending hc
  next => exact (h.false_of_phase (.inr (.inl hc))).elim
  next => exact hc

theorem ControllerStepped.keeps_readCoupling {s t : State} (h : ControllerStepped s t) (hf : PhaseFlags s) (hc : readCoupling s) :
    readCoupling t := by
  unfold readCoupling at hc ⊢
  rw [h.seq_eq]
  split at hc
  next => exact (h.false_of_quiescent hc).elim
  next => exact h.keeps_opening hc
  next => exact (h.false_of_phase (.inr (.inr hc.1))).elim
  next => exact h.keeps_ending hc
  next => exact (h.false_of_phase (.inr (.inl hc))).elim
  next =>
    obtain ⟨hp | hp, hr, hcount, haddr⟩ | ⟨hp, hr, hfull, hlast⟩ | ⟨hp, _⟩ | ⟨hn, _⟩ := hc
    · obtain ⟨hempty, hi⟩ := haddr hp
      have hempty' : t.reg.isr.rxne = false := (h.rxne_eq (by simp [hp])).trans hempty
      rcases h.of_addr_read hp hr with ⟨hp', hr', hrem⟩ | hn
      · refine .inl ⟨.inr hp', hr', ?_, by simp [hp']⟩
        simpa [waiting, hempty', hempty, hrem] using hcount
      · exact .inr (.inr (.inr ⟨hn, hempty', hi⟩))
    · obtain ⟨hempty, hfull, hr', hrest⟩ := h.of_rxRecv hp hr (hf.rem (by simp [hp]))
      simp only [waiting, hempty, Bool.false_eq_true, if_false] at hcount
      rcases hrest with ⟨hp', hrem⟩ | ⟨hp', hrem⟩
      · refine .inl ⟨.inr hp', hr', ?_, by simp [hp']⟩
        simp only [waiting, hfull, if_true]
        omega
      · exact .inr (.inl ⟨hp', hr', hfull, by omega⟩)
    · exact .inr (.inr (.inl ⟨h.of_endPhase_read hp hr, (h.rxne_eq (by simp [hp])).trans hfull, hlast⟩))
    · exact (h.false_of_phase (.inl hp)).elim
    · exact (h.false_of_nacked hn).elim
  next =>
    obtain ⟨hfull, ⟨hp, hr, _⟩ | ⟨⟨hp, hr⟩ | hp, hlast⟩⟩ := hc
    · simp [(h.of_rxRecv hp hr (hf.rem (by simp [hp]))).1] at hfull
    · exact ⟨(h.rxne_eq (by simp [hp])).trans hfull, .inr ⟨.inr (h.of_endPhase_read hp hr), hlast⟩⟩
    · exact (h.false_of_phase (.inl hp)).elim
  next =>
    obtain ⟨hempty, ⟨hp, hr⟩ | hp⟩ := hc
    · exact ⟨(h.rxne_eq (by simp [hp])).trans hempty, .inr (h.of_endPhase_read hp hr)⟩
    · exact (h.false_of_phase (.inl hp)).elim
  next => exact hc

/-! ### The coupling of the engine, shape by shape -/

theorem engineCoupling_idle_iff {s : State} (hb : s.seq.status ≠ .busy) :
    engineCoupling s ↔ s.quiescent = true ∧ s.reg.isr.rxne = false := by
  unfold engineCoupling
  split
  next => exact absurd ‹_› hb
  all_goals rfl

theorem engineCoupling_write_iff {s : State} (hb : s.seq.status = .busy) (hcmd : s.seq.cmd = .singleWrite) :
    engineCoupling s ↔ writeCoupling s ∧ s.reg.isr.rxne = false ∧ (s.seq.pc < 5 → s.seq.i = 0#8) := by
  simp only [engineCoupling, hb, hcmd]
  exact ⟨fun ⟨⟨hc, hr⟩, hearly⟩ => ⟨hc, hr, fun hpc => (hearly hpc).2⟩, fun ⟨hc, hr, hi⟩ => ⟨⟨hc, hr⟩, fun hpc => ⟨hr, hi hpc⟩⟩⟩

theorem engineCoupling_read_iff {s : State} (hb : s.seq.status = .busy) (hcmd : s.seq.cmd ≠ .singleWrite) :
    engineCoupling s ↔ readCoupling s ∧ (s.seq.cmd = .singleRead → s.seq.i = 0#8) ∧ (s.seq.cmd = .burstRead → s.seq.n ≠ 0#8) ∧
      (s.seq.pc < 5 → s.reg.isr.rxne = false ∧ s.seq.i = 0#8) := by
  simp only [engineCoupling, hb]
  cases h : s.seq.cmd with
  | singleWrite => exact absurd h hcmd
  | singleRead | burstRead => simp [and_assoc]

theorem phase_ne_rxRecv_of_writeCoupling {s : State} (hc : writeCoupling s) : s.ctl.phase ≠ .rxRecv := by
  intro hp
  unfold writeCoupling at hc
  split at hc <;> simp [hp, State.nacked, State.quiescent] at hc

/-- Bytes are received at the WAIT for RXNE and after it (R96, R97). -/
theorem pc_of_rxRecv {s : State} (hc : readCoupling s) (hp : s.ctl.phase = .rxRecv) : 5 ≤ s.seq.pc := by
  unfold readCoupling at hc
  split at hc <;> simp_all [State.nacked, State.quiescent]

/-- The controller's steps keep the coupling: between commands it has none. -/
theorem ControllerStepped.keeps_engineCoupling {s t : State} (h : ControllerStepped s t) (hf : PhaseFlags s)
    (hc : engineCoupling s) : engineCoupling t := by
  by_cases hb : s.seq.status = .busy
  · have hb' : t.seq.status = .busy := h.seq_eq ▸ hb
    by_cases hcmd : s.seq.cmd = .singleWrite
    · obtain ⟨hw, hr, hi⟩ := (engineCoupling_write_iff hb hcmd).1 hc
      have hr' := (h.rxne_eq (phase_ne_rxRecv_of_writeCoupling hw)).trans hr
      exact (engineCoupling_write_iff hb' (h.seq_eq ▸ hcmd)).2 ⟨h.keeps_writeCoupling hw, hr', h.seq_eq ▸ hi⟩
    · obtain ⟨hrd, hsingle, hburst, hearly⟩ := (engineCoupling_read_iff hb hcmd).1 hc
      refine (engineCoupling_read_iff hb' (h.seq_eq ▸ hcmd)).2
        ⟨h.keeps_readCoupling hf hrd, h.seq_eq ▸ hsingle, h.seq_eq ▸ hburst, ?_⟩
      rw [h.seq_eq]
      intro hpc
      have hp : s.ctl.phase ≠ .rxRecv := fun hp => absurd (pc_of_rxRecv hrd hp) (by omega)
      exact (h.rxne_eq hp).symm ▸ hearly hpc
  · exact (h.false_of_quiescent ((engineCoupling_idle_iff hb).1 hc).1).elim

end Sys2Proof.Machine
end

-- Family 42_transactions.md, part four: the sequencer's side of the coupling.
section
/-! What each micro-step leads to where the coupling has the controller (R89 to R93, R95 to R97), that no fault is met there (R133 to
R136), and that a command is presented to an engine in step; obligation O45 puts the agents together. -/

namespace Sys2Proof.Machine

/-! ### The micro-steps, where their access is accepted -/

theorem sequencerStep_of_wrCr2 {s : State} {a7 : Addr7} {rw : Dir} {n : Byte} {ae : Bool} (hb : s.seq.status = .busy)
    (hm : currentMicro s = some (.wrCr2 (cr2Value a7 rw n ae))) (hq : s.quiescent = true) (hn : n ≠ 0#8) :
    sequencerStep s = some ((s.beginPhase (cr2Value a7 rw n ae)).setPc (s.seq.pc + 1)) := by
  rw [sequencerStep_of_currentMicro hb hm, microStep, microWrCr2, writeCr2Start_of_quiescent (by simp) (by simpa using hn) hq]
  rfl

theorem sequencerStep_of_wrCr2Burst {s : State} {a7 : Addr7} {rw : Dir} {n : Byte} {ae : Bool} (hb : s.seq.status = .busy)
    (hm : currentMicro s = some (.wrCr2Burst (cr2Value a7 rw n ae))) (hq : s.quiescent = true) (hn : n ≠ 0#8) :
    sequencerStep s =
      some ((s.beginPhase (cr2Value a7 rw n ae)).setSeq { s.seq with i := 0#8, pc := s.seq.pc + 1 }) := by
  rw [sequencerStep_of_currentMicro hb hm, microStep, microWrCr2Burst, writeCr2Start_of_quiescent (by simp) (by simpa using hn) hq,
    Effect.commit_done, State.beginPhase_seq]

theorem sequencerStep_of_wrTx {s : State} {b : Byte} (hb : s.seq.status = .busy) (hm : currentMicro s = some (.wrTx b))
    (hp : s.ctl.phase = .txNeed) :
    sequencerStep s = some { s with
      reg := { s.reg with txdata := b, isr := s.reg.isr.onTxWrite }
      ctl := { s.ctl with shift := b, phase := .txSend }
      seq := { s.seq with pc := s.seq.pc + 1 } } := by
  rw [sequencerStep_of_currentMicro hb hm, microStep, microWrTx, writeTxdr_of_txNeed (txdrHighBits_dataWord b) hp,
    dataByte_dataWord]
  rfl

/-- A WAIT polls, or it goes on because its flag is set (R90). -/
theorem sequencerStep_wait_cases {s t : State} {f : WaitFlag} (hb : s.seq.status = .busy) (hm : currentMicro s = some (.wait f))
    (h : sequencerStep s = some t) : t = s ∨ flagSet f s.reg.isr.word = true ∧ t = s.setPc (s.seq.pc + 1) := by
  cases hf : flagSet f s.reg.isr.word with
  | false => exact .inl (Option.some.inj (h.symm.trans (sequencerStep_of_poll hb hm hf)))
  | true => exact .inr ⟨rfl, Option.some.inj (h.symm.trans (sequencerStep_of_wait hb hm hf))⟩

/-- TXIS is set in TxNeed alone (R87). -/
theorem sequencerStep_txis_cases {s t : State} (hf : PhaseFlags s) (hb : s.seq.status = .busy)
    (hm : currentMicro s = some (.wait .txis)) (h : sequencerStep s = some t) :
    t = s ∨ s.ctl.phase = .txNeed ∧ t = s.setPc (s.seq.pc + 1) :=
  (sequencerStep_wait_cases hb hm h).imp_right fun ⟨hflag, ht⟩ => ⟨hf.txis.1 (by simpa using hflag), ht⟩

/-- TC is set in TcHold alone (R87). -/
theorem sequencerStep_tc_cases {s t : State} (hf : PhaseFlags s) (hb : s.seq.status = .busy)
    (hm : currentMicro s = some (.wait .tc)) (h : sequencerStep s = some t) :
    t = s ∨ s.ctl.phase = .tcHold ∧ t = s.setPc (s.seq.pc + 1) :=
  (sequencerStep_wait_cases hb hm h).imp_right fun ⟨hflag, ht⟩ => ⟨hf.tc.1 (by simpa using hflag), ht⟩

/-- DONE ends the command in a quiescent controller, and holds in any other (R93). -/
theorem sequencerStep_done_cases {s t : State} (hb : s.seq.status = .busy) (hm : currentMicro s = some .done)
    (h : sequencerStep s = some t) : s.quiescent = true ∧ t = s.setSeq { s.seq with status := .done } := by
  rw [sequencerStep_of_currentMicro hb hm, microStep] at h
  split at h
  · exact ⟨‹_›, (Option.some.inj h).symm⟩
  · simp at h

/-- A START write leaves RXNE: no phase begins with a received byte taken or lost (R66). -/
@[simp] theorem State.beginPhase_rxne (s : State) (v : Word) : (s.beginPhase v).reg.isr.rxne = s.reg.isr.rxne := by
  unfold State.beginPhase
  split <;> rfl

/-- The opening of a read phase (R96, R97): NBYTES is the number of bytes the command reads. -/
theorem sequencerStep_opens_read {s : State} (hb : s.seq.status = .busy) (hcmd : s.seq.cmd ≠ .singleWrite) (hpc : s.seq.pc = 4)
    (hq : s.quiescent = true) (hi : s.seq.i = 0#8) (hburst : s.seq.cmd = .burstRead → s.seq.n ≠ 0#8) :
    ∃ n : Byte, n.toNat = readTotal s.seq ∧
      sequencerStep s = some ((s.beginPhase (cr2Value s.seq.a7 .read n true)).setSeq { s.seq with pc := 5 }) := by
  cases hshape : s.seq.cmd with
  | singleWrite => exact absurd hshape hcmd
  | singleRead =>
    have hm := currentMicro_of_singleRead (s := s) hshape (by rw [hpc]; rfl)
    refine ⟨1#8, by simp [readTotal, hshape], ?_⟩
    rw [sequencerStep_of_wrCr2 hb hm hq (by decide), State.setPc, State.beginPhase_seq, hpc]
  | burstRead =>
    have hm := currentMicro_of_burst (s := s) hshape (by rw [hpc]; rfl)
    refine ⟨s.seq.n, by simp [readTotal, hshape], ?_⟩
    rw [sequencerStep_of_wrCr2Burst hb hm hq (hburst hshape), hpc, ← hi]

/-! ### Each micro-step keeps the coupling -/

/-- A micro-step that moves `seq.pc` on, and neither takes nor leaves a byte in RXDR, keeps what the coupling says of the operands. -/
theorem engineCoupling_of_moved {s t : State} {k : Nat} (hs : engineCoupling s) (hb : s.seq.status = .busy)
    (hseq : t.seq = { s.seq with pc := k }) (hk : s.seq.pc ≤ k) (hr : t.reg.isr.rxne = s.reg.isr.rxne)
    (hc : s.seq.cmd = .singleWrite ∧ writeCoupling t ∨ s.seq.cmd ≠ .singleWrite ∧ readCoupling t) : engineCoupling t := by
  have hb' : t.seq.status = .busy := by rw [hseq]; exact hb
  have hcmd' : t.seq.cmd = s.seq.cmd := by rw [hseq]
  rcases hc with ⟨hcmd, hc⟩ | ⟨hcmd, hc⟩
  · obtain ⟨_, hempty, hearly⟩ := (engineCoupling_write_iff hb hcmd).1 hs
    refine (engineCoupling_write_iff hb' (hcmd'.trans hcmd)).2 ⟨hc, hr.trans hempty, ?_⟩
    rw [hseq]
    exact fun hlt => hearly (Nat.lt_of_le_of_lt hk hlt)
  · obtain ⟨_, hsingle, hburst, hearly⟩ := (engineCoupling_read_iff hb hcmd).1 hs
    refine (engineCoupling_read_iff hb' (hcmd' ▸ hcmd)).2 ⟨hc, ?_⟩
    rw [hseq, hr]
    exact ⟨hsingle, hburst, fun hlt => hearly (Nat.lt_of_le_of_lt hk hlt)⟩

/-- A WAIT for TXIS that goes on does so before any byte of the phase: all `k` are still to go. -/
theorem writeLeft_of_opening {s : State} {k : Nat}
    (hc : (s.ctl.phase = .addr ∨ s.ctl.phase = .txNeed) ∧ writeLeft s.ctl k ∨ s.nacked) (hp : s.ctl.phase = .txNeed) :
    writeLeft s.ctl k := by
  obtain ⟨_, hw⟩ | ⟨hidle, _⟩ := hc
  · exact hw
  · simp [hp] at hidle

/-- The micro-steps of a SINGLE_WRITE, index by index (R95). -/
theorem engineCoupling_of_write_step {s t : State} (hi : s.EngineInv) (hb : s.seq.status = .busy) (hcmd : s.seq.cmd = .singleWrite)
    (h : sequencerStep s = some t) : engineCoupling t := by
  obtain ⟨hc, hempty, _⟩ := (engineCoupling_write_iff hb hcmd).1 hi.coupling
  have hf := hi.inv.flags
  have hmoved {u k} (hseq) (hk) (hr) (hc) : engineCoupling u :=
    engineCoupling_of_moved (k := k) hi.coupling hb hseq hk hr (.inl ⟨hcmd, hc⟩)
  unfold writeCoupling at hc
  split at hc
  next hpc =>
    have hm := currentMicro_of_singleWrite hcmd (by rw [hpc]; rfl)
    obtain rfl := Option.some.inj ((sequencerStep_of_wrCr2 hb hm hc (by decide)).symm.trans h)
    rw [hpc]
    exact hmoved (k := 1) (by simp) (by omega) (by simp) (.inl ⟨.inl (by simp), by simp [writeLeft]⟩)
  next hpc =>
    have hm := currentMicro_of_singleWrite hcmd (by rw [hpc]; rfl)
    obtain rfl | ⟨hp, rfl⟩ := sequencerStep_txis_cases hf hb hm h
    · exact hi.coupling
    · rw [hpc]
      exact hmoved (k := 2) rfl (by omega) rfl ⟨hp, writeLeft_of_opening hc hp⟩
  next hpc =>
    have hm := currentMicro_of_singleWrite hcmd (by rw [hpc]; rfl)
    obtain rfl := Option.some.inj ((sequencerStep_of_wrTx hb hm hc.1).symm.trans h)
    rw [hpc]
    exact hmoved (k := 3) rfl (by omega) rfl (.inl ⟨rfl, hc.2⟩)
  next hpc =>
    have hm := currentMicro_of_singleWrite hcmd (by rw [hpc]; rfl)
    obtain rfl | ⟨hp, rfl⟩ := sequencerStep_txis_cases hf hb hm h
    · exact hi.coupling
    · rw [hpc]
      refine hmoved (k := 4) rfl (by omega) rfl ⟨hp, ?_⟩
      obtain ⟨hsend, _⟩ | ⟨_, hw⟩ | ⟨hidle, _⟩ := hc
      · simp [hp] at hsend
      · exact hw
      · simp [hp] at hidle
  next hpc =>
    have hm := currentMicro_of_singleWrite hcmd (by rw [hpc]; rfl)
    obtain rfl := Option.some.inj ((sequencerStep_of_wrTx hb hm hc.1).symm.trans h)
    rw [hpc]
    exact hmoved (k := 5) rfl (by omega) rfl (.inl ⟨rfl, hc.2⟩)
  next hpc =>
    have hm := currentMicro_of_singleWrite hcmd (by rw [hpc]; rfl)
    obtain rfl | ⟨hp, rfl⟩ := sequencerStep_tc_cases hf hb hm h
    · exact hi.coupling
    · rw [hpc]
      exact hmoved (k := 6) rfl (by omega) rfl hp
  next hpc =>
    have hm := currentMicro_of_singleWrite hcmd (by rw [hpc]; rfl)
    obtain ⟨hq, rfl⟩ := sequencerStep_done_cases hb hm h
    exact ⟨hq, hempty⟩
  next => exact hc.elim

/-- The micro-steps of the two reads up to their read phase, index by index (R96, R97). -/
theorem engineCoupling_of_subAddress_step {s t : State} (hi : s.EngineInv) (hb : s.seq.status = .busy)
    (hcmd : s.seq.cmd ≠ .singleWrite) (hlt : s.seq.pc < 5) (h : sequencerStep s = some t) : engineCoupling t := by
  obtain ⟨hc, _, hburst, hearly⟩ := (engineCoupling_read_iff hb hcmd).1 hi.coupling
  obtain ⟨hempty, hi0⟩ := hearly hlt
  have hf := hi.inv.flags
  have hmoved {u k} (hseq) (hk) (hr) (hc) : engineCoupling u :=
    engineCoupling_of_moved (k := k) hi.coupling hb hseq hk hr (.inr ⟨hcmd, hc⟩)
  unfold readCoupling at hc
  split at hc
  next hpc =>
    have hm := currentMicro_of_read hcmd (by rw [hpc]; rfl)
    obtain rfl := Option.some.inj ((sequencerStep_of_wrCr2 hb hm hc (by decide)).symm.trans h)
    rw [hpc]
    exact hmoved (k := 1) (by simp) (by omega) (by simp) (.inl ⟨.inl (by simp), by simp [writeLeft]⟩)
  next hpc =>
    have hm := currentMicro_of_read hcmd (by rw [hpc]; rfl)
    obtain rfl | ⟨hp, rfl⟩ := sequencerStep_txis_cases hf hb hm h
    · exact hi.coupling
    · rw [hpc]
      exact hmoved (k := 2) rfl (by omega) rfl ⟨hp, writeLeft_of_opening hc hp⟩
  next hpc =>
    have hm := currentMicro_of_read hcmd (by rw [hpc]; rfl)
    obtain rfl := Option.some.inj ((sequencerStep_of_wrTx hb hm hc.1).symm.trans h)
    rw [hpc]
    exact hmoved (k := 3) rfl (by omega) rfl (.inl ⟨rfl, hc.2⟩)
  next hpc =>
    have hm := currentMicro_of_read hcmd (by rw [hpc]; rfl)
    obtain rfl | ⟨hp, rfl⟩ := sequencerStep_tc_cases hf hb hm h
    · exact hi.coupling
    · rw [hpc]
      exact hmoved (k := 4) rfl (by omega) rfl hp
  next hpc =>
    obtain ⟨n, hn, hstep⟩ := sequencerStep_opens_read hb hcmd hpc ((State.quiescent_iff s).2 (.inr hc)) hi0 hburst
    obtain rfl := Option.some.inj (hstep.symm.trans h)
    refine hmoved (k := 5) rfl (by omega) (by simp) (.inl ⟨.inl (by simp), by simp [readPhase], ?_, fun _ => ⟨by simpa, hi0⟩⟩)
    simp [waiting, hempty, hi0, hn]
    rfl
  next hpc => omega
  next hpc => omega
  next hpc => omega
  next => exact hc.elim

/-- At a WAIT for RXNE with a received byte, the controller has more to receive, or that byte was the last (R81, R82). -/
theorem engineCoupling_of_awaited_byte {s t : State} (hi : s.EngineInv) (hb : s.seq.status = .busy)
    (hcmd : s.seq.cmd ≠ .singleWrite) (hpc : s.seq.pc = 5) (hm : currentMicro s = some (.wait .rxne))
    (h : sequencerStep s = some t) : engineCoupling t := by
  obtain rfl | ⟨hflag, rfl⟩ := sequencerStep_wait_cases hb hm h
  · exact hi.coupling
  have hfull : s.reg.isr.rxne = true := by simpa using hflag
  have hc := ((engineCoupling_read_iff hb hcmd).1 hi.coupling).1
  simp only [readCoupling, hpc, waiting, hfull, if_true] at hc
  rw [hpc]
  refine engineCoupling_of_moved (k := 6) hi.coupling hb rfl (by omega) rfl (.inr ⟨hcmd, hfull, ?_⟩)
  obtain ⟨hp | hp, hr, hcount, haddr⟩ | ⟨hp, hr, _, hlast⟩ | ⟨hp, _, hlast⟩ | ⟨_, hempty, _⟩ := hc
  · exact absurd (haddr hp).1 (by decide)
  · exact .inl ⟨hp, hr, hcount⟩
  · exact .inr ⟨.inl ⟨hp, hr⟩, hlast⟩
  · exact .inr ⟨.inr hp, hlast⟩
  · exact absurd hempty (by decide)

/-- At an RDRX more bytes are to be read exactly where the controller has more to receive (R80, R92). -/
theorem bytes_left_at_rdRx {s : State} (hi : s.EngineInv) (hb : s.seq.status = .busy) (hcmd : s.seq.cmd ≠ .singleWrite)
    (hpc : s.seq.pc = 6) :
    s.reg.isr.rxne = true ∧
      (s.ctl.phase = .rxRecv ∧ readPhase s.ctl ∧ s.ctl.rem.toNat + (s.seq.i.toNat + 1) = readTotal s.seq ∧
          s.seq.i.toNat + 1 < readTotal s.seq ∨
        (s.ctl.phase = .endPhase ∧ readPhase s.ctl ∨ s.ctl.phase = .idle) ∧ s.seq.i.toNat + 1 = readTotal s.seq) := by
  have hc := ((engineCoupling_read_iff hb hcmd).1 hi.coupling).1
  simp only [readCoupling, hpc] at hc
  refine hc.imp_right (Or.imp_left fun ⟨hp, hr, hcount⟩ => ?_)
  have hrem : s.ctl.rem ≠ 0#8 := hi.inv.flags.rem (by simp [hp])
  exact ⟨hp, hr, by omega, by bv_omega⟩

/-- An RDRX keeps what the coupling says of the operands. -/
theorem engineCoupling_of_byte_read {s t : State} (hs : engineCoupling s) (hb : s.seq.status = .busy)
    (hcmd : s.seq.cmd ≠ .singleWrite) (hseq : t.seq = { s.seq with i := t.seq.i, result := t.seq.result, pc := t.seq.pc })
    (hi : s.seq.cmd = .singleRead → t.seq.i = s.seq.i) (hpc : 5 ≤ t.seq.pc) (hc : readCoupling t) : engineCoupling t := by
  obtain ⟨_, hsingle, hburst, _⟩ := (engineCoupling_read_iff hb hcmd).1 hs
  have hb' : t.seq.status = .busy := by rw [hseq]; exact hb
  have hcmd' : t.seq.cmd = s.seq.cmd := by rw [hseq]
  have hn : t.seq.n = s.seq.n := by rw [hseq]
  refine (engineCoupling_read_iff hb' (hcmd' ▸ hcmd)).2 ⟨hc, ?_, ?_, fun hlt => absurd hpc (Nat.not_le.2 hlt)⟩
  · rw [hcmd']
    exact fun h => (hi h).trans (hsingle h)
  · rwa [hcmd', hn]

/-- RDRX of a SINGLE_READ: its one byte is the last (R96). -/
theorem engineCoupling_of_result {s t : State} (hi : s.EngineInv) (hb : s.seq.status = .busy) (hcmd : s.seq.cmd = .singleRead)
    (hpc : s.seq.pc = 6) (h : sequencerStep s = some t) : engineCoupling t := by
  have hcmd' : s.seq.cmd ≠ .singleWrite := by simp [hcmd]
  have hm := currentMicro_of_singleRead hcmd (by rw [hpc]; rfl)
  obtain ⟨hfull, hplace⟩ := bytes_left_at_rdRx hi hb hcmd' hpc
  obtain rfl := Option.some.inj ((sequencerStep_of_result hb hm hfull).symm.trans h)
  rw [hpc]
  refine engineCoupling_of_byte_read hi.coupling hb hcmd' rfl (fun _ => rfl) (by simp) ⟨rfl, ?_⟩
  rcases hplace with ⟨_, _, _, hmore⟩ | ⟨hp, _⟩
  · simp [readTotal, hcmd] at hmore
  · exact hp

/-- RDRX of a BURST_READ: back to the WAIT while bytes are missing, else on to DONE (R92, R97). -/
theorem engineCoupling_of_buffered {s t : State} (hi : s.EngineInv) (hb : s.seq.status = .busy) (hcmd : s.seq.cmd = .burstRead)
    (hpc : s.seq.pc = 6) (h : sequencerStep s = some t) : engineCoupling t := by
  have hcmd' : s.seq.cmd ≠ .singleWrite := by simp [hcmd]
  have hm := currentMicro_of_burst hcmd (by rw [hpc]; rfl)
  obtain ⟨hfull, hplace⟩ := bytes_left_at_rdRx hi hb hcmd' hpc
  obtain rfl := Option.some.inj ((sequencerStep_of_buffer hb hm hfull).symm.trans h)
  simp only [readTotal, hcmd] at hplace
  have hread {u} (hseq) (hpc) (hc) : engineCoupling u :=
    engineCoupling_of_byte_read hi.coupling hb hcmd' hseq (fun h => absurd (hcmd.symm.trans h) (by decide)) hpc hc
  have hsucc : (s.seq.i + 1#8).toNat = s.seq.i.toNat + 1 := by
    have hle : s.seq.i.toNat + 1 ≤ s.seq.n.toNat := hplace.elim (fun h => h.2.2.2.le) fun h => h.2.le
    bv_omega
  rcases hplace with ⟨hp, hr, hcount, hmore⟩ | ⟨hp, hlast⟩
  · rw [hsucc, if_pos hmore, hpc]
    refine hread rfl (by simp) (.inl ⟨.inr hp, hr, ?_, fun ha => absurd (hp.symm.trans ha) (by decide)⟩)
    simp [waiting, Isr.onRxRead, readTotal, hcmd, hsucc, hcount]
  · rw [hsucc, if_neg hlast.not_lt, hpc]
    exact hread rfl (by simp) ⟨rfl, hp⟩

/-- The two reads end alike (R96, R97). -/
theorem currentMicro_of_read_end {s : State} (hcmd : s.seq.cmd ≠ .singleWrite) :
    (s.seq.pc = 5 → currentMicro s = some (.wait .rxne)) ∧ (s.seq.pc = 7 → currentMicro s = some .done) := by
  cases hshape : s.seq.cmd with
  | singleWrite => exact absurd hshape hcmd
  | singleRead =>
    exact ⟨fun hpc => currentMicro_of_singleRead hshape (by rw [hpc]; rfl),
      fun hpc => currentMicro_of_singleRead hshape (by rw [hpc]; rfl)⟩
  | burstRead =>
    exact ⟨fun hpc => currentMicro_of_burst hshape (by rw [hpc]; rfl), fun hpc => currentMicro_of_burst hshape (by rw [hpc]; rfl)⟩

theorem pc_of_readCoupling {s : State} (hc : readCoupling s) : s.seq.pc < 5 ∨ s.seq.pc = 5 ∨ s.seq.pc = 6 ∨ s.seq.pc = 7 := by
  unfold readCoupling at hc
  split at hc <;> simp_all

/-- The micro-steps of the two reads. -/
theorem engineCoupling_of_read_step {s t : State} (hi : s.EngineInv) (hb : s.seq.status = .busy) (hcmd : s.seq.cmd ≠ .singleWrite)
    (h : sequencerStep s = some t) : engineCoupling t := by
  obtain ⟨hwait, hend⟩ := currentMicro_of_read_end hcmd
  have hc := ((engineCoupling_read_iff hb hcmd).1 hi.coupling).1
  rcases pc_of_readCoupling hc with hlt | hpc | hpc | hpc
  · exact engineCoupling_of_subAddress_step hi hb hcmd hlt h
  · exact engineCoupling_of_awaited_byte hi hb hcmd hpc (hwait hpc) h
  · cases hshape : s.seq.cmd with
    | singleWrite => exact absurd hshape hcmd
    | singleRead => exact engineCoupling_of_result hi hb hshape hpc h
    | burstRead => exact engineCoupling_of_buffered hi hb hshape hpc h
  · obtain ⟨hq, rfl⟩ := sequencerStep_done_cases hb (hend hpc) h
    simp only [readCoupling, hpc] at hc
    exact ⟨hq, hc.1⟩

/-! ### No fault -/

/-- Where the coupling has the controller, no access of a micro-step faults (R133 to R136). -/
theorem Stepped.faults_eq {s t : State} (h : Stepped s t) (hi : s.EngineInv) (hb : s.seq.status = .busy) : t.faults = s.faults := by
  cases h with
  | faulted f h =>
    rcases h with ⟨_, ⟨v, hm | hm⟩, hq⟩ | ⟨_, ⟨b, hm⟩, hp⟩ | ⟨_, ⟨d, hm⟩, hr⟩
    · simp [(hi.placed hb hm).quiescent_of_wrCr2 (.inl rfl)] at hq
    · simp [(hi.placed hb hm).quiescent_of_wrCr2 (.inr rfl)] at hq
    · exact absurd (hi.placed hb hm).txNeed_of_wrTx hp
    · simp [(hi.placed hb hm).rxne_of_rdRx] at hr
  | started v | startedBurst v => exact State.beginPhase_faults s v
  | _ => rfl

/-! ### A command is presented -/

theorem Presented.faults_eq {s t : State} (h : Presented s t) : t.faults = s.faults := by
  cases h <;> rfl

/-- A command is admitted only to an engine at rest, and then starts at its first micro-step (R107, R113). -/
theorem Presented.keeps_engineCoupling {s t : State} (h : Presented s t) (hc : engineCoupling s) : engineCoupling t := by
  cases h with
  | overlap | unbound | badRange => exact hc
  | rejected hb => exact (engineCoupling_idle_iff hb).1 hc
  | read hb a7 reg =>
    obtain ⟨hq, hr⟩ := (engineCoupling_idle_iff hb).1 hc
    exact ⟨⟨hq, rfl⟩, fun _ => ⟨hr, rfl⟩⟩
  | write hb a7 reg val =>
    obtain ⟨hq, hr⟩ := (engineCoupling_idle_iff hb).1 hc
    exact ⟨⟨hq, hr⟩, fun _ => ⟨hr, rfl⟩⟩
  | burst hb a7 reg n buf buflen hn =>
    obtain ⟨hq, hr⟩ := (engineCoupling_idle_iff hb).1 hc
    exact ⟨⟨hq, hn⟩, fun _ => ⟨hr, rfl⟩⟩

/-! ### The engine -/

/-- The coupling is kept, and no fault raised, whoever moves. -/
theorem Moves.engine {s t : State} {e : Env} (h : Moves s t e) (hi : s.EngineInv) (he : e.inbox = s.env.inbox) :
    engineCoupling t ∧ t.faults = s.faults := by
  have hi' := hi.setEnv he
  rcases h with rfl | ⟨hb, hs⟩ | hc | ⟨x, rest, hx, _, hrun⟩
  · exact ⟨hi.coupling, rfl⟩
  · refine ⟨?_, (sequencerStep_stepped hs).2.faults_eq hi' hb⟩
    by_cases hcmd : s.seq.cmd = .singleWrite
    · exact engineCoupling_of_write_step hi' hb hcmd hs
    · exact engineCoupling_of_read_step hi' hb hcmd hs
  · have hstep := controllerStep_stepped hc
    exact ⟨hstep.keeps_engineCoupling hi'.inv.flags hi'.coupling, hstep.faults_eq⟩
  · have hp := runRequest_presented hrun (hi.commands x (hx ▸ List.mem_cons_self))
    exact ⟨hp.keeps_engineCoupling hi.coupling, hp.faults_eq⟩

/-- Settles O45: the block's invariant and the caller's list are kept by every step, the coupling by each agent's. -/
theorem stepKeepsEngineInv : Obligations.StepKeepsEngineInv := by
  intro s t hi h
  obtain ⟨_, _, e, he, hm⟩ := step_next_cases h
  obtain ⟨hcoupling, hfaults⟩ := hm.engine hi he
  have hnofault := hfaults.trans hi.noFault
  exact ⟨⟨stepKeepsInv s t hi.inv h, fun x hx => hi.commands x (hm.inbox_subset he hx), hnofault, hcoupling⟩, hnofault⟩

end Sys2Proof.Machine
end

-- Family 42_transactions.md, part five: the bytes of a burst.
section
/-! The account of the bytes a burst reads (R92, R98), agent by agent; obligation O46. -/

namespace Sys2Proof.Machine

/-! ### The account -/

/-- What `State.burstData` says of a BURST_READ in its read phase. -/
structure State.BurstAccount (s : State) : Prop where
  count  : (phaseData s.trace).length = s.seq.i.toNat + waiting s
  stored : bufferHolds s s.seq.i.toNat
  waits  : s.reg.isr.rxne = true → (phaseData s.trace)[s.seq.i.toNat]? = some s.reg.rxdata
  ends   : s.seq.pc = 7 → s.seq.i = s.seq.n

theorem burstData_busy_iff {s : State} (hcmd : s.seq.cmd = .burstRead) (hb : s.seq.status = .busy) :
    s.burstData ↔ (5 ≤ s.seq.pc → s.BurstAccount) := by
  simp only [State.burstData, hcmd, hb]
  exact forall_congr' fun _ => ⟨fun ⟨hn, hs, hw, he⟩ => ⟨hn, hs, hw, he⟩, fun ⟨hn, hs, hw, he⟩ => ⟨hn, hs, hw, he⟩⟩

theorem burstData_done_iff {s : State} (hcmd : s.seq.cmd = .burstRead) (hd : s.seq.status = .done) :
    s.burstData ↔ (phaseData s.trace).length = s.seq.n.toNat ∧ bufferHolds s s.seq.n.toNat := by
  simp only [State.burstData, hcmd, hd]

/-- The account is of a burst that runs or has ended with Done. -/
theorem burstData_of_other {s : State} (h : s.seq.cmd ≠ .burstRead ∨ s.seq.status ≠ .busy ∧ s.seq.status ≠ .done) :
    s.burstData := by
  unfold State.burstData
  split <;> simp_all

/-- The account looks at the sequencer, host memory, RXDR with its flag, and the data bytes of the phase. -/
theorem State.burstData.of_eq {s t : State} (h : s.burstData) (hseq : t.seq = s.seq) (hmem : t.mem = s.mem)
    (hrxne : t.reg.isr.rxne = s.reg.isr.rxne) (hrx : t.reg.rxdata = s.reg.rxdata)
    (hdata : phaseData t.trace = phaseData s.trace) : t.burstData := by
  unfold State.burstData bufferHolds waiting at h ⊢
  rwa [hseq, hmem, hrxne, hrx, hdata]

/-! ### The controller -/

/-- The controller's step receives a byte, or leaves RXDR and the data bytes of the phase (R80). -/
theorem ControllerStepped.data_cases {s t : State} (h : ControllerStepped s t) :
    phaseData t.trace = phaseData s.trace ∧ t.reg.isr.rxne = s.reg.isr.rxne ∧ t.reg.rxdata = s.reg.rxdata ∨
    s.reg.isr.rxne = false ∧ t.reg.isr.rxne = true ∧ phaseData t.trace = phaseData s.trace ++ [t.reg.rxdata] := by
  cases h with
  | receivedLast _ _ _ hr | receivedMore _ _ _ hr =>
    refine .inr ⟨hr, rfl, ?_⟩
    rw [phaseData_append]
    rfl
  | held => exact .inl ⟨rfl, rfl, rfl⟩
  | _ =>
    refine .inl ⟨?_, rfl, rfl⟩
    rw [phaseData_append]
    rfl

/-- A byte received is the one that waits, after the consumed ones. -/
theorem State.BurstAccount.received {s t : State} (h : s.BurstAccount) (hseq : t.seq = s.seq) (hmem : t.mem = s.mem)
    (hempty : s.reg.isr.rxne = false) (hfull : t.reg.isr.rxne = true)
    (hdata : phaseData t.trace = phaseData s.trace ++ [t.reg.rxdata]) : t.BurstAccount := by
  obtain ⟨hcount, hstored, _, hends⟩ := h
  have hlen : (phaseData s.trace).length = s.seq.i.toNat := by simpa [waiting, hempty] using hcount
  refine ⟨?_, fun j hj => ?_, fun _ => ?_, hseq ▸ hends⟩
  · simp [hdata, hseq, waiting, hfull, hlen]
  · rw [hseq] at hj ⊢
    rw [hmem, hdata, List.getElem?_append_left (by omega)]
    exact hstored j hj
  · rw [hdata, hseq, ← hlen, List.getElem?_concat_length]

theorem ControllerStepped.burstData {s t : State} (h : ControllerStepped s t) (hc : engineCoupling s) (hd : s.burstData) :
    t.burstData := by
  rcases h.data_cases with ⟨hdata, hrxne, hrx⟩ | ⟨hempty, hfull, hdata⟩
  · exact hd.of_eq h.seq_eq h.mem_eq hrxne hrx hdata
  by_cases hb : s.seq.status = .busy
  · by_cases hcmd : s.seq.cmd = .burstRead
    · refine (burstData_busy_iff (h.seq_eq ▸ hcmd) (h.seq_eq ▸ hb)).2 fun hpc => ?_
      exact ((burstData_busy_iff hcmd hb).1 hd (h.seq_eq ▸ hpc)).received h.seq_eq h.mem_eq hempty hfull hdata
    · exact burstData_of_other (.inl (h.seq_eq ▸ hcmd))
  · exact (h.false_of_quiescent ((engineCoupling_idle_iff hb).1 hc).1).elim

/-! ### The sequencer -/

/-- Where the micro-steps of a BURST_READ stand, its WAITs aside (R97). -/
theorem pc_of_burst {s : State} {m : Micro} (hcmd : s.seq.cmd = .burstRead) (hm : currentMicro s = some m) :
    match m with
    | .wrCr2 _ => s.seq.pc = 0
    | .wrCr2Burst _ => s.seq.pc = 4
    | .wait _ => True
    | .wrTx _ => s.seq.pc = 2
    | .rdRx .result => False
    | .rdRx .buffer => s.seq.pc = 6
    | .done => s.seq.pc = 7 := by
  simp only [currentMicro, program, hcmd] at hm
  generalize s.seq.pc = k at hm ⊢
  obtain ⟨hlen, rfl⟩ := List.getElem?_eq_some_iff.1 hm
  simp only [List.length_cons, List.length_nil] at hlen
  interval_cases k <;> simp

/-- No data byte of a phase precedes its opener (R86). -/
theorem phaseData_beginPhase {s : State} (v : Word) (hq : s.quiescent = true) : phaseData (s.beginPhase v).trace = [] := by
  rcases State.beginPhase_bus v hq with ⟨_, ht, _⟩ | ⟨_, ht, _⟩ <;> rw [ht, phaseData_append] <;> rfl

/-- RDRX stores the byte that waits behind the consumed ones (R92). -/
theorem State.BurstAccount.buffered {s : State} (h : s.BurstAccount) (hr : s.reg.isr.rxne = true) (hpc : s.seq.pc = 6)
    (hlt : s.seq.i.toNat < s.seq.n.toNat) :
    (((s.setIsr s.reg.isr.onRxRead).writeMem (s.seq.buf + s.seq.i.toNat) s.reg.rxdata).setSeq
      { s.seq with i := s.seq.i + 1#8,
                   pc := if (s.seq.i + 1#8).toNat < s.seq.n.toNat then s.seq.pc - 1 else s.seq.pc + 1 }).BurstAccount := by
  obtain ⟨hcount, hstored, hwaits, _⟩ := h
  have hsucc : (s.seq.i + 1#8).toNat = s.seq.i.toNat + 1 := by bv_omega
  refine ⟨?_, fun j hj => ?_, nofun, fun hend => ?_⟩
  · simpa [waiting, hr, Isr.onRxRead, hsucc] using hcount
  · simp only [State.setSeq_seq, hsucc] at hj
    rcases Nat.lt_succ_iff_lt_or_eq.1 hj with hj | rfl
    · exact (Memory.read_write_other _ _ _ _ (by simp; omega)).trans (hstored j hj)
    · exact (Memory.read_write_same _ _ _).trans (hwaits hr).symm
  · simp only [State.setSeq_seq, hpc] at hend ⊢
    split at hend
    · omega
    · exact BitVec.eq_of_toNat_eq (by omega)

theorem Stepped.burstData {s t : State} (h : Stepped s t) (hi : s.EngineInv) (hb : s.seq.status = .busy) (hd : s.burstData) :
    t.burstData := by
  by_cases hcmd : s.seq.cmd = .burstRead
  case neg => exact burstData_of_other (.inl (h.operands_eq.1 ▸ hcmd))
  have hcmd' : t.seq.cmd = .burstRead := h.operands_eq.1.trans hcmd
  have hkeeps (hb' : t.seq.status = .busy) (ht : 5 ≤ t.seq.pc → t.BurstAccount) : t.burstData :=
    (burstData_busy_iff hcmd' hb').2 ht
  have haccount := (burstData_busy_iff hcmd hb).1 hd
  obtain ⟨hc, _, _, hearly⟩ := (engineCoupling_read_iff hb (by simp [hcmd])).1 hi.coupling
  cases h with
  | faulted | refused | polled => exact hd
  | started v hm =>
    have hpc : s.seq.pc = 0 := pc_of_burst hcmd hm
    exact hkeeps (by simpa using hb) fun hlate => by simp [hpc] at hlate
  | startedBurst v hm _ hq =>
    have hpc : s.seq.pc = 4 := pc_of_burst hcmd hm
    have hempty := (hearly (by omega)).1
    refine hkeeps hb fun _ => ⟨?_, fun j hj => absurd hj (Nat.not_lt_zero j), fun hr => ?_, fun hend => ?_⟩
    · simp [phaseData_beginPhase v hq, waiting, hempty]
    · simp [hempty] at hr
    · simp [hpc] at hend
  | passed f hm =>
    refine hkeeps hb fun hlate => ?_
    have hpc : s.seq.pc = 5 := by
      have hwait := pc_of_wait hm
      simp only [State.setPc_seq] at hlate
      omega
    obtain ⟨hcount, hstored, hwaits, _⟩ := haccount hpc.ge
    exact ⟨hcount, hstored, hwaits, fun hend => by simp [hpc] at hend⟩
  | sent b hm =>
    have hpc : s.seq.pc = 2 := pc_of_burst hcmd hm
    exact hkeeps hb fun hlate => by simp [hpc] at hlate
  | result hm => exact (pc_of_burst hcmd hm).elim
  | buffered hm hr =>
    have hpc : s.seq.pc = 6 := pc_of_burst hcmd hm
    exact hkeeps hb fun _ => (haccount (by omega)).buffered hr hpc (burstIndex_lt hi.coupling hb hm)
  | finished hm =>
    have hpc : s.seq.pc = 7 := pc_of_burst hcmd hm
    simp only [readCoupling, hpc] at hc
    obtain ⟨hcount, hstored, _, hends⟩ := haccount (by omega)
    rw [hends hpc] at hcount hstored
    exact (burstData_done_iff hcmd' rfl).2 ⟨by simpa [waiting, hc.1] using hcount, hstored⟩

/-! ### A command is presented -/

/-- A burst that is admitted has not reached its read phase; a command that is not admitted changes nothing of the account (R107). -/
theorem Presented.burstData {s t : State} (h : Presented s t) (hd : s.burstData) : t.burstData := by
  cases h with
  | overlap | unbound | badRange => exact hd
  | rejected => exact burstData_of_other (.inr ⟨nofun, nofun⟩)
  | read | write => exact trivial
  | burst => exact (burstData_busy_iff rfl rfl).2 nofun

/-- Settles O46, agent by agent. -/
theorem stepKeepsBurstData : Obligations.StepKeepsBurstData := by
  intro s t hi hd h
  obtain ⟨_, _, e, he, rfl | ⟨hb, hs⟩ | hc | ⟨x, rest, hx, _, hrun⟩⟩ := step_next_cases h
  · exact hd
  · exact (sequencerStep_stepped hs).2.burstData (hi.setEnv he) hb hd
  · exact (controllerStep_stepped hc).burstData hi.coupling hd
  · exact (runRequest_presented hrun (hi.commands x (hx ▸ List.mem_cons_self))).burstData hd

end Sys2Proof.Machine
end

-- Family 43_command_admission.md, part one: requests that run, admission, and names that do not resolve.
section
/-! SUPPORT. One rule for each way a request comes to run (R102, R141, R142), for a command that meets a busy sequencer (R113), for each
rejection (R104 to R106), and for each name of the facade that does not resolve (R108, R109). -/

namespace Sys2Proof.Machine

/-! ### The caller's request runs -/

theorem runRequest_of_instr {r : Request} {s : State} {i : Instr} (h : decode s.params.base r = .instr i) :
    runRequest r s = exec i s := by
  rw [runRequest, h]

theorem runRequest_of_reserved {r : Request} {s : State} (h : decode s.params.base r = .reservedDescriptor) :
    runRequest r s = .next (admitReserved s) := by
  rw [runRequest, h]

theorem present_of_instr {s : State} {x : Submission} {rest : List Submission} {i : Instr} (hx : s.env.inbox = x :: rest)
    (hi : decode s.params.base x.request = .instr i) : present s = exec i (s.setEnv { s.env with inbox := rest }) := by
  rw [present, hx]
  exact runRequest_of_instr hi

/-- An urgent request goes before both agents (R113). -/
theorem step_of_urgent {s : State} (hs : s.unmarked) (hu : urgent s = true) : step s = present s := by
  rw [step_of_unmarked hs.1 hs.2]
  simp [move, nextMover, engineMove, hu]

/-- Between commands, with nothing left to do for the controller, the caller's next request is the only move there is (R141). -/
theorem step_of_waiting_request {s : State} (hs : s.unmarked) (hb : s.seq.status ≠ .busy) (hc : controllerStep s = none)
    (hx : s.env.inbox ≠ []) : step s = present s := by
  have he : engineEnabled s = true := by simp [engineEnabled, hb, hx]
  have hn : nextMover s = (some .sequencer, s) := by simp [nextMover, he, hc]
  rw [step_of_unmarked hs.1 hs.2, move, hn]
  simp [engineMove, hb]

/-- A word of the table is a command, which no base address decides (R57). -/
theorem decode_tableRequest_of_decodeTableWord {nbits w : Nat} {i : Instr} (h : decodeTableWord nbits w = some i) (base : Nat) :
    decode base (tableRequest nbits w) = .instr i := by
  have hbase : decode base (tableRequest nbits w) = decode Config.params.base (tableRequest nbits w) := rfl
  rw [hbase]
  unfold decodeTableWord at h
  split at h
  · rwa [← Option.some.inj h]
  all_goals cases h

/-! ### Admission by the sequencer's status -/

theorem unlessBusy_of_busy {s : State} (hb : s.seq.status = .busy) (t : State) : unlessBusy s t = s.refuse .commandOverlap :=
  if_pos hb

theorem unlessBusy_of_not_busy {s : State} (hb : s.seq.status ≠ .busy) (t : State) : unlessBusy s t = t :=
  if_neg hb

theorem exec_singleRead_overlap {s : State} (hb : s.seq.status = .busy) (a7 : Addr7) (reg : Byte) :
    exec (.singleRead a7 reg) s = .next (s.refuse .commandOverlap) :=
  congrArg _ (unlessBusy_of_busy hb _)

theorem exec_singleWrite_overlap {s : State} (hb : s.seq.status = .busy) (a7 : Addr7) (reg val : Byte) :
    exec (.singleWrite a7 reg val) s = .next (s.refuse .commandOverlap) :=
  congrArg _ (unlessBusy_of_busy hb _)

theorem exec_burstRead_overlap {s : State} (hb : s.seq.status = .busy) (a7 : Addr7) (reg n : Byte) (buf buflen : Nat) :
    exec (.burstRead a7 reg n buf buflen) s = .next (s.refuse .commandOverlap) :=
  congrArg _ (unlessBusy_of_busy hb _)

/-- The overlap is found before the descriptor is looked at, so a reserved one is refused and not rejected (R102). -/
theorem runRequest_command_overlap {s : State} (hb : s.seq.status = .busy) (w : Word) (buf buflen : Nat) :
    runRequest (.command w buf buflen) s = .next (s.refuse .commandOverlap) := by
  have of_instr {i : Instr} (hd : decodeDescriptor w buf buflen = .instr i) : runRequest (.command w buf buflen) s = exec i s :=
    runRequest_of_instr hd
  rcases decodeDescriptor_cases w buf buflen with hd | ⟨a7, reg, hd⟩ | ⟨a7, reg, val, hd⟩ | ⟨a7, reg, n, hd⟩
  · exact (runRequest_of_reserved (r := .command w buf buflen) hd).trans (congrArg _ (unlessBusy_of_busy hb _))
  · exact (of_instr hd).trans (exec_singleRead_overlap hb a7 reg)
  · exact (of_instr hd).trans (exec_singleWrite_overlap hb a7 reg val)
  · exact (of_instr hd).trans (exec_burstRead_overlap hb a7 reg n buf buflen)

theorem admitReserved_of_not_busy {s : State} (hb : s.seq.status ≠ .busy) : admitReserved s = s.reject .reserved :=
  unlessBusy_of_not_busy hb _

theorem exec_burstRead_zeroLength {s : State} (hb : s.seq.status ≠ .busy) (a7 : Addr7) (reg : Byte) (buf buflen : Nat) :
    exec (.burstRead a7 reg 0#8 buf buflen) s = .next (s.reject .zeroLength) :=
  congrArg _ (unlessBusy_of_not_busy hb _)

theorem exec_burstRead_bufferTooSmall {s : State} (hb : s.seq.status ≠ .busy) (a7 : Addr7) (reg : Byte) {n : Byte}
    (hn : n ≠ 0#8) (buf : Nat) {buflen : Nat} (hlen : buflen < n.toNat) :
    exec (.burstRead a7 reg n buf buflen) s = .next (s.reject .bufferTooSmall) := by
  simp [exec, execBurstRead, admitBurstRead, unlessBusy_of_not_busy hb, hn, hlen]

/-! ### Names that do not resolve -/

theorem exec_facadeRead_unresolved {s : State} {slave : SlaveName} {reg : RegName}
    (h : slaveAddr s.params slave = none ∨ boundAddr s.params slave reg = none) :
    exec (.facadeRead slave reg) s = .next (s.refuse .unboundRegister) := by
  simp only [exec, execFacadeRead]
  split
  · rename_i ha hr
    simp [ha, hr] at h
  · rfl

theorem exec_facadeWrite_unresolved {s : State} {slave : SlaveName} {reg : RegName}
    (h : slaveAddr s.params slave = none ∨ boundAddr s.params slave reg = none) (val : Byte) :
    exec (.facadeWrite slave reg val) s = .next (s.refuse .unboundRegister) := by
  simp only [exec, execFacadeWrite]
  split
  · rename_i ha hr
    simp [ha, hr] at h
  · rfl

theorem exec_facadeReadAll_unknown_slave {s : State} {slave : SlaveName} (ha : slaveAddr s.params slave = none)
    (range : RangeName) (buf buflen : Nat) :
    exec (.facadeReadAll slave range buf buflen) s = .next (s.refuse .unboundRegister) := by
  simp [exec, execFacadeReadAll, ha]

theorem exec_facadeReadAll_bad_range {s : State} {slave : SlaveName} {range : RangeName} {a7 : Addr7}
    (ha : slaveAddr s.params slave = some a7) (hspan : rangeSpan s.params slave range = none) (buf buflen : Nat) :
    exec (.facadeReadAll slave range buf buflen) s = .next (s.refuse .badRange) := by
  simp [exec, execFacadeReadAll, ha, hspan]

section
variable {p : Params} {slave : SlaveName} {range : RangeName} {e : RangeEntry}

theorem rangeSpan_of_no_entry (he : rangeEntry p slave range = none) : rangeSpan p slave range = none := by
  simp [rangeSpan, he]

theorem rangeSpan_of_unbound_end (he : rangeEntry p slave range = some e)
    (hends : boundAddr p slave e.first = none ∨ boundAddr p slave e.last = none) : rangeSpan p slave range = none := by
  simp only [rangeSpan, he]
  split
  · rename_i hfirst hlast
    simp [hfirst, hlast] at hends
  · rfl

theorem rangeSpan_of_reversed {first last : Byte} (he : rangeEntry p slave range = some e)
    (hfirst : boundAddr p slave e.first = some first) (hlast : boundAddr p slave e.last = some last)
    (hlt : last.toNat < first.toNat) : rangeSpan p slave range = none := by
  simp [rangeSpan, he, hfirst, hlast, Nat.not_le.2 hlt]

end

/-! ### The frame of the command and facade rows -/

/-- `i` is one of the six rows that present a command. -/
def IsCommandRow (i : Instr) : Prop :=
  (∃ a7 reg, i = .singleRead a7 reg) ∨ (∃ a7 reg val, i = .singleWrite a7 reg val) ∨
    (∃ a7 reg n buf buflen, i = .burstRead a7 reg n buf buflen) ∨ (∃ slave reg, i = .facadeRead slave reg) ∨
    (∃ slave reg val, i = .facadeWrite slave reg val) ∨ (∃ slave range buf buflen, i = .facadeReadAll slave range buf buflen)

theorem exec_presented {i : Instr} {s t : State} (h : exec i s = .next t) (hi : IsCommandRow i) : Presented s t := by
  have of_next {u : State} (hu : exec i s = .next u) (hp : Presented s u) : Presented s t := by
    cases hu.symm.trans h
    exact hp
  rcases hi with ⟨a7, reg, rfl⟩ | ⟨a7, reg, val, rfl⟩ | ⟨a7, reg, n, buf, buflen, rfl⟩ | ⟨slave, reg, rfl⟩ |
    ⟨slave, reg, val, rfl⟩ | ⟨slave, range, buf, buflen, rfl⟩
  · exact of_next rfl (admitSingleRead_presented a7 reg s)
  · exact of_next rfl (admitSingleWrite_presented a7 reg val s)
  · exact of_next rfl (admitBurstRead_presented a7 reg n buf buflen s)
  · obtain ⟨_, hu, hp⟩ := execFacadeRead_presented slave reg s
    exact of_next hu hp
  · obtain ⟨_, hu, hp⟩ := execFacadeWrite_presented slave reg val s
    exact of_next hu hp
  · obtain ⟨_, hu, hp⟩ := execFacadeReadAll_presented slave range buf buflen s
    exact of_next hu hp

/-- A refusal marks the state alone; a rejection and an admission carry no mark (R104 to R109, R113). -/
theorem Presented.seq_eq_of_refused {s t : State} (h : Presented s t) (hr : t.refused ≠ s.refused) : t.seq = s.seq := by
  cases h with
  | overlap | unbound | badRange => rfl
  | _ => exact absurd rfl hr

/-- No command and no facade operation touches the registers, the controller, the bus or the last reply: that is the engine's work
(R102). -/
theorem Presented.hardware_eq {s t : State} (h : Presented s t) :
    t.reg = s.reg ∧ t.ctl = s.ctl ∧ t.trace = s.trace ∧ t.reply = s.reply ∧ t.params = s.params := by
  cases h <;> exact ⟨rfl, rfl, rfl, rfl, rfl⟩

end Sys2Proof.Machine
end

-- Family 43_command_admission.md, part two: its obligations.
section
/-! Obligations O9, O21, O22, O23, O25, O26 and O27, from the rules for requests, admission and names. -/

namespace Sys2Proof.Machine

/-- Settles O9: a request that does not wait is urgent, one that waits is the only move left, and a table word is placed as a request
that does not wait. -/
theorem stepRunsDecodedInstruction : Obligations.StepRunsDecodedInstruction := by
  intro s x rest i hf hr hi
  refine ⟨fun hx hmoves => ?_, fun nbits w hw => ?_⟩
  · have hstep : step s = present s := by
      rcases hmoves with ⟨hwait, hruns⟩ | ⟨hidle, hc⟩
      · refine step_of_urgent ⟨hf, hr⟩ ((urgent_iff s).2 ⟨x, rest, hx, hwait, hruns.imp_left fun hline => ?_⟩)
        exact Bool.eq_false_iff.2 fun hacc => ((isAccess_iff _).1 hacc).elim hline
      · exact step_of_waiting_request ⟨hf, hr⟩ hidle hc (by simp [hx])
    exact hstep.trans (present_of_instr hx hi)
  · exact (step_placeRequest ⟨hf, hr⟩ rfl).trans (runRequest_of_instr (decode_tableRequest_of_decodeTableWord hw _))

/-- Settles O21: while the sequencer is not busy each shape is admitted, a burst under the conditions of R105 and R106. -/
theorem commandsAdmitted : Obligations.CommandsAdmitted := by
  intro s a7 reg val n buf buflen hidle
  exact ⟨exec_singleRead_admitted hidle a7 reg, exec_singleWrite_admitted hidle a7 reg val,
    fun hn hlen => exec_burstRead_admitted hidle a7 reg hn buf hlen⟩

/-- Settles O22: the decoder finds the first rejection, the admission of a burst the other two. -/
theorem commandsRejected : Obligations.CommandsRejected := by
  intro s w a7 reg n buf buflen hidle
  refine ⟨fun hd => ?_, exec_burstRead_zeroLength hidle a7 reg buf buflen,
    fun hn hlen => exec_burstRead_bufferTooSmall hidle a7 reg hn buf hlen⟩
  rw [runRequest_of_reserved hd, admitReserved_of_not_busy hidle]
  rfl

/-- Settles O23: overlap is decided by the status alone; after a command's end the word that decodes to a shape is admitted as that
shape. -/
theorem overlapRefused : Obligations.OverlapRefused := by
  intro s w buf buflen
  refine ⟨fun hb => ⟨runRequest_command_overlap hb w buf buflen, fun a7 reg val n =>
    ⟨exec_singleRead_overlap hb a7 reg, exec_singleWrite_overlap hb a7 reg val, exec_burstRead_overlap hb a7 reg n buf buflen⟩⟩,
    fun hended i hi hfits => ?_⟩
  have hidle : s.seq.status ≠ .busy := by
    rcases hended with h | ⟨c, h⟩ <;> simp [h]
  have hrun := runRequest_of_instr hi
  rcases decodeDescriptor_eq_instr hi with ⟨a7, reg, rfl, _⟩ | ⟨a7, reg, val, rfl, _⟩ | ⟨a7, reg, n, rfl, _⟩
  · refine ⟨_, hrun.trans (exec_singleRead_admitted hidle a7 reg), rfl, rfl, rfl, ?_, nofun, nofun⟩
    rintro _ _ ⟨⟩
    exact ⟨rfl, rfl, rfl⟩
  · refine ⟨_, hrun.trans (exec_singleWrite_admitted hidle a7 reg val), rfl, rfl, rfl, nofun, ?_, nofun⟩
    rintro _ _ _ ⟨⟩
    exact ⟨rfl, rfl, rfl, rfl⟩
  · obtain ⟨hn, hlen⟩ := hfits a7 reg n rfl
    refine ⟨_, hrun.trans (exec_burstRead_admitted hidle a7 reg hn buf hlen), rfl, rfl, rfl, nofun, nofun, ?_⟩
    rintro _ _ _ ⟨⟩
    exact ⟨rfl, rfl, rfl, rfl, rfl, rfl⟩

/-- Settles O25: each operation is the command it expands to, and that is admitted. -/
theorem facadeCompletes : Obligations.FacadeCompletes := by
  intro s slave reg range val buf buflen a7 hidle ha
  refine ⟨fun r hr => ⟨?_, ?_⟩, fun first n hspan hn hlen => ?_⟩
  · exact (exec_facadeRead ha hr).trans (exec_singleRead_admitted hidle a7 r)
  · exact (exec_facadeWrite ha hr val).trans (exec_singleWrite_admitted hidle a7 r val)
  · exact (exec_facadeReadAll ha hspan buf buflen).trans (exec_burstRead_admitted hidle a7 first hn buf hlen)

/-- Settles O26: a range that has no entry, an unbound end, or its ends reversed spans nothing. -/
theorem facadeRefusals : Obligations.FacadeRefusals := by
  intro s slave reg range val buf buflen
  refine ⟨fun h => ⟨exec_facadeRead_unresolved h, exec_facadeWrite_unresolved h val⟩,
    fun ha => exec_facadeReadAll_unknown_slave ha range buf buflen, fun a7 ha hbad => ?_⟩
  have hspan : rangeSpan s.params slave range = none := by
    rcases hbad with he | ⟨e, he, hfirst | hlast | ⟨first, last, hfirst, hlast, hlt⟩⟩
    · exact rangeSpan_of_no_entry he
    · exact rangeSpan_of_unbound_end he (.inl hfirst)
    · exact rangeSpan_of_unbound_end he (.inr hlast)
    · exact rangeSpan_of_reversed he hfirst hlast hlt
  exact exec_facadeReadAll_bad_range ha hspan buf buflen

/-- Settles O27: each of the six rows presents a command, and what that can do is `Presented`. -/
theorem commandRowFrame : Obligations.CommandRowFrame := by
  intro i s t h hi
  have hp := exec_presented h hi
  obtain ⟨hreg, hctl, htrace, hreply, hparams⟩ := hp.hardware_eq
  exact ⟨hreg, hctl, htrace, fun a => by rw [hp.mem_eq], hp.faults_eq, hreply, hp.env_eq, hparams, hp.seq_eq_of_refused⟩

end Sys2Proof.Machine
end

-- Family 70_reset_and_hazards.md, part one: the work a command has left.
section
/-! The measure of R139 and R140, agent by agent: every step of the controller leaves less of it, and every micro-step but a poll; and
the coupling leaves a command in progress without such a step only where it has stalled. Obligation O50. -/

namespace Sys2Proof.Machine

/-! ### The controller's work -/

/-- A phase never has the work of one micro-step. -/
theorem controllerWork_lt (c : Ctl) : controllerWork c < 1024 := by
  have hrem := c.rem.isLt
  unfold controllerWork
  split <;> omega

/-- Every step of the controller takes one step or one byte from what its phase has left (R77 to R84). -/
theorem ControllerStepped.controllerWork_lt {s t : State} (h : ControllerStepped s t) (hf : PhaseFlags s) :
    controllerWork t.ctl < controllerWork s.ctl := by
  have hrem := hf.rem
  cases h with
  | addressNacked _ hp | addressedWrite _ hp | addressedRead _ hp =>
    simp only [controllerWork, hp]
    omega
  | sentNacked _ hp | sentLast _ hp | sentMore _ hp | receivedLast _ _ hp | receivedMore _ _ hp =>
    simp only [hp, reduceCtorEq, true_or, or_true, true_implies] at hrem
    simp only [controllerWork, hp]
    bv_omega
  | stopped hp | held hp => simp [controllerWork, hp]

theorem ControllerStepped.workLeft_lt {s t : State} (h : ControllerStepped s t) (hf : PhaseFlags s) : t.workLeft < s.workLeft := by
  rw [State.workLeft, State.workLeft, h.seq_eq]
  exact Nat.add_lt_add_left (h.controllerWork_lt hf) _

/-! ### The sequencer's work -/

/-- Where the micro-step `m` stands in the program of a command, in whichever shape (R95 to R97). -/
def standsAt (q : Seq) (m : Micro) : Prop :=
  match m with
  | .wrCr2 _ => q.pc < 5
  | .wrCr2Burst _ => q.pc < 5
  | .wait _ => q.pc < 6
  | .wrTx _ => q.pc < 6
  | .rdRx .result => q.pc = 6 ∧ q.cmd = .singleRead
  | .rdRx .buffer => q.pc = 6 ∧ q.cmd = .burstRead
  | .done => q.pc = if q.cmd = .singleWrite then 6 else 7

theorem standsAt_of_currentMicro {s : State} {m : Micro} (h : currentMicro s = some m) : standsAt s.seq m := by
  unfold currentMicro program at h
  unfold standsAt
  generalize s.seq.pc = k at h ⊢
  split at h <;>
    (obtain ⟨hlen, rfl⟩ := List.getElem?_eq_some_iff.1 h
     simp only [List.length_cons, List.length_nil] at hlen
     interval_cases k <;> simp [*])

/-- The micro-step at index 6 or before, that of a burst at 6 aside, is one of those left. -/
theorem sequencerWork_pc_succ {q : Seq} (hb : q.status = .busy) (hpc : q.pc < 6 ∨ q.pc = 6 ∧ q.cmd = .singleRead) :
    sequencerWork { q with pc := q.pc + 1 } < sequencerWork q := by
  simp only [sequencerWork, hb]
  split
  next hcmd => simp only [hcmd, reduceCtorEq, and_false, or_false] at hpc; omega
  next => omega
  next hcmd =>
    simp only [hcmd, reduceCtorEq, and_false, or_false] at hpc
    rw [if_pos (by omega : q.pc ≤ 5)]
    split
    · omega
    · rw [if_pos (by omega : q.pc + 1 = 6)]
      omega

/-- DONE is the last micro-step of each shape. -/
theorem sequencerWork_of_done {s : State} (hb : s.seq.status = .busy) (hm : currentMicro s = some .done) :
    sequencerWork s.seq = 1 := by
  have hpc : s.seq.pc = if s.seq.cmd = .singleWrite then 6 else 7 := standsAt_of_currentMicro hm
  cases hcmd : s.seq.cmd <;> simp [sequencerWork, hb, hpc, hcmd]

/-- The CR2 words of the engine are words of R51: NBYTES is 0 at most in the read phase of a burst of no bytes (R95 to R97). -/
theorem cr2Value_of_currentMicro {s : State} {v : Word}
    (h : currentMicro s = some (.wrCr2 v) ∨ currentMicro s = some (.wrCr2Burst v)) :
    ∃ a7 rw n ae, v = cr2Value a7 rw n ae ∧ (n = 0#8 → s.seq.cmd = .burstRead ∧ s.seq.n = 0#8) := by
  have hmem : Micro.wrCr2 v ∈ program s.seq ∨ Micro.wrCr2Burst v ∈ program s.seq :=
    h.imp List.mem_of_getElem? List.mem_of_getElem?
  unfold program at hmem
  split at hmem <;>
    simp only [List.mem_cons, Micro.wrCr2.injEq, Micro.wrCr2Burst.injEq, reduceCtorEq, List.not_mem_nil, or_false, false_or] at hmem
  · exact ⟨_, _, _, _, hmem, nofun⟩
  · rcases hmem with h | h <;> exact ⟨_, _, _, _, h, nofun⟩
  · rcases hmem with h | h
    · exact ⟨_, _, _, _, h, nofun⟩
    · exact ⟨_, _, _, _, h, fun hn => ⟨‹_›, hn⟩⟩

/-- No burst in progress is one of no bytes (R105). -/
theorem n_ne_zero_of_burst {s : State} (hc : engineCoupling s) (hb : s.seq.status = .busy) (hcmd : s.seq.cmd = .burstRead) :
    s.seq.n ≠ 0#8 :=
  ((engineCoupling_read_iff hb (by simp [hcmd])).1 hc).2.2.1 hcmd

/-- No byte is counted before the read phase (R96, R97). -/
theorem index_eq_zero_of_early {s : State} (hc : engineCoupling s) (hb : s.seq.status = .busy) (hpc : s.seq.pc < 5) :
    s.seq.i = 0#8 := by
  simp only [engineCoupling, hb] at hc
  exact (hc.2 hpc).2

/-- What the engine writes to CR2 is never refused (R60, R66). -/
theorem accepted_of_currentMicro {s : State} {v : Word} (hc : engineCoupling s) (hb : s.seq.status = .busy)
    (h : currentMicro s = some (.wrCr2 v) ∨ currentMicro s = some (.wrCr2Burst v)) :
    hasUnsupportedField v = false ∧ cr2Nbytes v ≠ 0#8 := by
  obtain ⟨a7, rw, n, ae, rfl, hn⟩ := cr2Value_of_currentMicro h
  refine ⟨hasUnsupportedField_cr2Value a7 rw n ae, fun h0 => ?_⟩
  obtain ⟨hcmd, hz⟩ := hn ((cr2Nbytes_cr2Value a7 rw n ae).symm.trans h0)
  exact n_ne_zero_of_burst hc hb hcmd hz

/-- A byte of a burst read is one less to come, and none is left behind the last (R92). -/
theorem sequencerWork_buffered {q : Seq} (hb : q.status = .busy) (hcmd : q.cmd = .burstRead) (hpc : q.pc = 6)
    (hi : q.i.toNat < q.n.toNat) :
    sequencerWork { q with i := q.i + 1#8, pc := if (q.i + 1#8).toNat < q.n.toNat then q.pc - 1 else q.pc + 1 } <
      sequencerWork q := by
  have hsucc : (q.i + 1#8).toNat = q.i.toNat + 1 := by bv_omega
  simp only [sequencerWork, hb, hcmd, hpc, hsucc]
  split
  · simp
    omega
  · simp
    omega

/-- A micro-step polls, or leaves one micro-step less (R88 to R93). -/
theorem Stepped.polls_or_works {s t : State} (h : Stepped s t) (hi : s.EngineInv) (hb : s.seq.status = .busy) :
    (t = s ∧ ∃ f, currentMicro s = some (.wait f) ∧ flagSet f s.reg.isr.word = false) ∨
      sequencerWork t.seq < sequencerWork s.seq := by
  cases id h with
  | faulted f =>
    have hfault := h.faults_eq hi hb
    simp [hi.noFault] at hfault
  | refused r hr =>
    obtain ⟨v, hm, hcase⟩ := hr
    obtain ⟨hu, hn⟩ := accepted_of_currentMicro hi.coupling hb hm
    simp [hu, hn] at hcase
  | started v hm =>
    have hpc : s.seq.pc < 5 := standsAt_of_currentMicro hm
    rw [State.setPc_seq, State.beginPhase_seq]
    exact .inr (sequencerWork_pc_succ hb (.inl (by omega)))
  | startedBurst v hm =>
    have hpc : s.seq.pc < 5 := standsAt_of_currentMicro hm
    rw [State.setSeq_seq, ← index_eq_zero_of_early hi.coupling hb hpc]
    exact .inr (sequencerWork_pc_succ hb (.inl (by omega)))
  | passed f hm => exact .inr (sequencerWork_pc_succ hb (.inl (standsAt_of_currentMicro hm)))
  | polled f hm hf => exact .inl ⟨rfl, f, hm, hf⟩
  | sent b hm => exact .inr (sequencerWork_pc_succ hb (.inl (standsAt_of_currentMicro hm)))
  | result hm => exact .inr (sequencerWork_pc_succ hb (.inr (standsAt_of_currentMicro hm)))
  | buffered hm =>
    obtain ⟨hpc, hcmd⟩ := standsAt_of_currentMicro hm
    exact .inr (sequencerWork_buffered hb hcmd hpc (burstIndex_lt hi.coupling hb hm))
  | finished hm => exact .inr (sequencerWork_of_done hb hm ▸ Nat.one_pos)

/-- A micro-step outweighs all that the controller may have to do after it. -/
theorem workLeft_lt_of_sequencerWork {s t : State} (h : sequencerWork t.seq < sequencerWork s.seq) : t.workLeft < s.workLeft := by
  have hctl := controllerWork_lt t.ctl
  unfold State.workLeft
  omega

/-! ### A command that has no such step -/

/-- At a WAIT whose byte has not come, the controller is Idle by a NACK alone (R99). -/
theorem nacked_of_idle_wait {s : State} {f : WaitFlag} (hc : engineCoupling s) (hb : s.seq.status = .busy)
    (hm : currentMicro s = some (.wait f)) (hp : s.ctl.phase = .idle) (hr : s.reg.isr.rxne = false) : s.nacked := by
  have hpc := pc_of_wait hm
  by_cases hcmd : s.seq.cmd = .singleWrite
  · have hw := ((engineCoupling_write_iff hb hcmd).1 hc).1
    rcases hpc with hpc | hpc | hpc <;> simpa [writeCoupling, hpc, hp] using hw
  · have hrd := ((engineCoupling_read_iff hb hcmd).1 hc).1
    rcases hpc with hpc | hpc | hpc <;> simp [readCoupling, hpc, hp, hr] at hrd <;> simp [hrd]

/-- While the controller has no step, a poll that finds its flag 0 is a stall: the flag would be set, or a NACK has left the
controller Idle (R99, R119). -/
theorem stalledAt_of_poll {s : State} {f : WaitFlag} (hi : s.EngineInv) (hb : s.seq.status = .busy) (hc : controllerStep s = none)
    (hm : currentMicro s = some (.wait f)) (hf : flagSet f s.reg.isr.word = false) : s.stalledAt f := by
  have hrest := (controllerSchedule s).1 hc
  have hflags := hi.inv.flags
  have hstall (hp : s.ctl.phase = .idle) (hr : s.reg.isr.rxne = false) : s.stalledAt f :=
    ⟨hb, hm, hf, nacked_of_idle_wait hi.coupling hb hm hp hr⟩
  cases hi.placed hb hm with
  | opens h => simp at h
  | awaitsTxis hr hp =>
    rcases hp with hp | hp | hp | hp
    · simp [hp] at hrest
    · simp [hp] at hrest
    · simp [hflags.txis.2 hp] at hf
    · exact hstall hp hr
  | awaitsTc hr hp =>
    rcases hp with hp | ⟨hp, _⟩ | hp | hp
    · simp [hp] at hrest
    · simp [hp] at hrest
    · simp [hflags.tc.2 hp] at hf
    · exact hstall hp hr
  | awaitsRxne hp =>
    have hr : s.reg.isr.rxne = false := by simpa using hf
    rcases hp with ⟨hp, _⟩ | hp | ⟨hp, _⟩ | hp
    · simp [hp] at hrest
    · simp [hp, hr] at hrest
    · simp [hp] at hrest
    · exact hstall hp hr

/-- DONE does not hold while the controller has no step (R93). -/
theorem quiescent_of_done {s : State} (hi : s.EngineInv) (hb : s.seq.status = .busy) (hc : controllerStep s = none)
    (hm : currentMicro s = some .done) : s.quiescent = true := by
  rw [State.quiescent_iff]
  have hidle := (controllerSchedule s).1 hc
  cases hi.placed hb hm with
  | opens h => simp at h
  | ends _ hp => rcases hp with hp | hp | hp <;> simp [hp] at hidle ⊢

/-- Every micro-step but DONE has an outcome, an access that is not accepted its mark (R89 to R93). -/
theorem microStep_isSome {m : Micro} (hm : m ≠ .done) (s : State) : (microStep m s).isSome = true := by
  cases m with
  | rdRx d => cases d <;> rfl
  | done => exact absurd rfl hm
  | _ => rfl

/-! ### Who has work -/

/-- The agent has a step that is no poll. -/
def hasWork (a : Agent) (s : State) : Prop :=
  match a with
  | .sequencer => (sequencerStep s).isSome = true ∧ ∀ f, currentMicro s = some (.wait f) → flagSet f s.reg.isr.word = true
  | .controller => (controllerStep s).isSome = true

/-- Only a command that has stalled leaves both agents without work (R99, R119). -/
theorem stalled_or_hasWork {s : State} (hi : s.EngineInv) (hb : s.seq.status = .busy) :
    (∃ f, s.stalledAt f) ∨ ∃ a, hasWork a s := by
  rcases hc : (controllerStep s).isSome with _ | _
  case true => exact .inr ⟨.controller, hc⟩
  have hc : controllerStep s = none := by simpa using hc
  obtain ⟨m, hm, _⟩ := placed_of_engineCoupling hi.coupling hb
  have hstep : (sequencerStep s).isSome = true := by
    by_cases hdone : m = .done
    · subst hdone
      rw [sequencerStep_of_done hb hm (quiescent_of_done hi hb hc hm)]
      rfl
    · rw [sequencerStep_of_currentMicro hb hm]
      exact microStep_isSome hdone s
  by_cases hpoll : ∃ f, currentMicro s = some (.wait f) ∧ flagSet f s.reg.isr.word = false
  · obtain ⟨f, hw, hf⟩ := hpoll
    exact .inl ⟨f, stalledAt_of_poll hi hb hc hw hf⟩
  · refine .inr ⟨.sequencer, hstep, fun f hw => ?_⟩
    by_contra hf
    exact hpoll ⟨f, hw, Bool.eq_false_iff.2 hf⟩

/-- A micro-step that is no poll leaves less work. -/
theorem sequencerStep_workLeft_lt {s t : State} (hi : s.EngineInv) (hw : hasWork .sequencer s) (h : sequencerStep s = some t) :
    t.workLeft < s.workLeft := by
  obtain ⟨hb, hs⟩ := sequencerStep_stepped h
  rcases hs.polls_or_works hi hb with ⟨_, f, hm, hf⟩ | hlt
  · simp [hw.2 f hm] at hf
  · exact workLeft_lt_of_sequencerWork hlt

theorem sequencerStep_polls_or_workLeft_lt {s t : State} (hi : s.EngineInv) (h : sequencerStep s = some t) :
    t = s ∨ t.workLeft < s.workLeft := by
  obtain ⟨hb, hs⟩ := sequencerStep_stepped h
  exact (hs.polls_or_works hi hb).imp And.left workLeft_lt_of_sequencerWork

theorem controllerStep_workLeft_lt {s t : State} (hi : s.EngineInv) (h : controllerStep s = some t) : t.workLeft < s.workLeft :=
  (controllerStep_stepped h).workLeft_lt hi.inv.flags

/-- Settles O50: an agent that has work leaves less of it, and where neither has any the command has stalled. -/
theorem commandMakesProgress : Obligations.CommandMakesProgress := by
  intro s hi hb
  refine ⟨(stalled_or_hasWork hi hb).imp_right fun ⟨a, hw⟩ => ?_, fun t => sequencerStep_polls_or_workLeft_lt hi,
    fun t => controllerStep_workLeft_lt hi⟩
  cases a with
  | sequencer =>
    obtain ⟨t, ht⟩ := Option.isSome_iff_exists.1 hw.1
    exact .inr ⟨t, ht, sequencerStep_workLeft_lt hi hw ht⟩
  | controller =>
    obtain ⟨t, ht⟩ := Option.isSome_iff_exists.1 hw
    exact .inl ⟨t, ht, controllerStep_workLeft_lt hi ht⟩

end Sys2Proof.Machine
end

-- Family 70_reset_and_hazards.md, part two: a run on which no agent is starved.
section
/-! A command in progress on a run that does not stop (R139, R140): nobody breaks into it, each step polls or leaves less work, and who
has work keeps it until a step of its own. Obligation O51. -/

namespace Sys2Proof.Machine

/-! ### One step of a command that nobody breaks into -/

/-- Where the step of a command in progress comes from: an agent that has one, unless neither does (R88, R76). -/
theorem step_of_busy {s t : State} (hb : s.seq.status = .busy) (hu : urgent s = false) (h : step s = .next t) :
    ∃ e : Env, e.inbox = s.env.inbox ∧
      ((nextMover s).1 = none ∧ t = s.setEnv e ∨
        (nextMover s).1 = some .sequencer ∧ sequencerStep (s.setEnv e) = some t ∨
        (nextMover s).1 = some .controller ∧ controllerStep (s.setEnv e) = some t) := by
  obtain ⟨_, _, hm⟩ := step_next_unmarked h
  obtain ⟨e, he, hs, hwho⟩ := nextMover_cases s
  refine ⟨e, he, ?_⟩
  unfold move at hm
  split at hm <;> rename_i hn <;> rw [hn] at hs hwho ⊢ <;> subst hs
  · exact .inl ⟨rfl, by cases hm; rfl⟩
  · have hsome : (sequencerStep s).isSome = true := by simpa [engineEnabled, hu, hb] using hwho
    obtain ⟨u, hseq⟩ := Option.isSome_iff_exists.1 ((sequencerStep_isSome_setEnv s e).trans hsome)
    cases (engineMove_of_sequencerStep ((urgent_setEnv he).trans hu) hseq).symm.trans hm
    exact .inr (.inl ⟨rfl, hseq⟩)
  · have hsome : (controllerStep s).isSome = true := by simpa using hwho
    obtain ⟨u, hctl⟩ := Option.isSome_iff_exists.1 ((controllerStep_isSome_setEnv s e).trans hsome)
    cases (controllerMove_of_controllerStep hctl).symm.trans hm
    exact .inr (.inr ⟨rfl, hctl⟩)

/-- An urgent command that meets one in progress is refused, and the machine stops (R113, R121). -/
theorem not_urgent_of_steps_on {s t u : State} (hi : s.EngineInv) (hb : s.seq.status = .busy) (h : step s = .next t)
    (h' : step t = .next u) : urgent s = false := by
  by_contra hu
  have hu : urgent s = true := by simpa using hu
  obtain ⟨hf, hr, _⟩ := step_next_unmarked h
  obtain ⟨_, hr', _⟩ := step_next_unmarked h'
  rw [step_of_urgent ⟨hf, hr⟩ hu] at h
  obtain ⟨x, rest, hx, _⟩ := (urgent_iff s).1 hu
  rcases present_cases h with ⟨hnil, _⟩ | ⟨y, ys, hy, hrun⟩
  · simp [hx] at hnil
  cases runRequest_presented hrun (hi.commands y (hy ▸ List.mem_cons_self)) with
  | overlap | unbound | badRange => simp at hr'
  | rejected hb' | read hb' | write hb' | burst hb' => exact absurd hb hb'

/-- A micro-step leaves the command in progress, or ends it (R93). -/
theorem Stepped.status_cases {s t : State} (h : Stepped s t) : t.seq.status = s.seq.status ∨ t.seq.status = .done := by
  cases h with
  | finished => exact .inr rfl
  | started v | startedBurst v => exact .inl (by simp)
  | _ => exact .inl rfl

/-- The step of a command that nobody breaks into leaves the state as it was, the schedule aside, or leaves less work. -/
theorem polls_or_workLeft_lt {s t : State} (hi : s.EngineInv) (hb : s.seq.status = .busy) (hu : urgent s = false)
    (h : step s = .next t) : (∃ e, t = s.setEnv e) ∨ t.workLeft < s.workLeft := by
  obtain ⟨e, he, hwho⟩ := step_of_busy hb hu h
  have hi' := hi.setEnv he
  rcases hwho with ⟨_, ht⟩ | ⟨_, hs⟩ | ⟨_, hc⟩
  · exact .inl ⟨e, ht⟩
  · exact (sequencerStep_polls_or_workLeft_lt hi' hs).imp_left fun ht => ⟨e, ht⟩
  · exact .inr (controllerStep_workLeft_lt hi' hc :)

/-! ### Who has work keeps it, and does it when its turn comes -/

theorem hasWork.setEnv {a : Agent} {s : State} (h : hasWork a s) (e : Env) : hasWork a (s.setEnv e) := by
  cases a with
  | sequencer => exact ⟨(sequencerStep_isSome_setEnv s e).trans h.1, h.2⟩
  | controller => exact (controllerStep_isSome_setEnv s e).trans h

theorem hasWork.hasStep {a : Agent} {s : State} (h : hasWork a s) (hb : s.seq.status = .busy) : hasStep a s := by
  cases a with
  | sequencer => simp [Machine.hasStep, engineEnabled, hb, h.1]
  | controller => exact h

theorem hasWork.workLeft_lt {a : Agent} {s t : State} (hw : hasWork a s) (hi : s.EngineInv) (hb : s.seq.status = .busy)
    (hu : urgent s = false) (ha : takesStep a s) (h : step s = .next t) : t.workLeft < s.workLeft := by
  unfold takesStep at ha
  obtain ⟨e, he, hwho⟩ := step_of_busy hb hu h
  have hi' := hi.setEnv he
  rcases hwho with ⟨hn, _⟩ | ⟨hn, hs⟩ | ⟨hn, hc⟩
  · simp [hn] at ha
  · obtain rfl : .sequencer = a := Option.some.inj (hn.symm.trans ha)
    exact (sequencerStep_workLeft_lt hi' (hw.setEnv e) hs :)
  · exact (controllerStep_workLeft_lt hi' hc :)

/-! ### The run -/

/-- Where a fair run stands while its command has not ended. -/
structure State.Pending (s : State) : Prop where
  engine    : s.EngineInv
  busy      : s.seq.status = .busy
  unstalled : ∀ f, ¬ s.stalledAt f

/-- A step that ends no command and puts no `SNack` on the bus leaves the command in progress, and not stalled (R99, R119). -/
theorem State.Pending.of_step {s t : State} (hp : s.Pending) (hu : urgent s = false) (h : step s = .next t)
    (hdone : t.seq.status ≠ .done) (hack : t.trace.count .sNack = s.trace.count .sNack) : t.Pending := by
  refine ⟨(stepKeepsEngineInv s t hp.engine h).1, ?_, fun f hf => ?_⟩
  · obtain ⟨e, _, ⟨_, rfl⟩ | ⟨_, hs⟩ | ⟨_, hc⟩⟩ := step_of_busy hp.busy hu h
    · exact hp.busy
    · exact ((sequencerStep_stepped hs).2.status_cases.resolve_right hdone).trans hp.busy
    · exact (congrArg Seq.status (controllerStep_stepped hc).seq_eq).trans hp.busy
  · rcases nackStalls.2 s t f hp.engine h hf with hs | ⟨ev, ht⟩
    · exact hp.unstalled f hs
    · rw [ht, List.count_append] at hack
      simp [List.count_cons] at hack

section
variable {r : Nat → State} (hrun : isRun r) (hp : ∀ k, (r k).Pending)
include hrun hp

theorem not_urgent_of_run (k : Nat) : urgent (r k) = false :=
  not_urgent_of_steps_on (hp k).engine (hp k).busy (hrun k) (hrun (k + 1))

/-- From where the work is least on, a run only polls. -/
theorem eq_setEnv_of_least_work {k : Nat} (hleast : ∀ j, (r k).workLeft ≤ (r j).workLeft) {j : Nat} (hj : k ≤ j) :
    ∃ e, r j = (r k).setEnv e := by
  induction j, hj using Nat.le_induction with
  | base => exact ⟨(r k).env, rfl⟩
  | succ j hj ih =>
    obtain ⟨e, hjk⟩ := ih
    rcases polls_or_workLeft_lt (hp j).engine (hp j).busy (not_urgent_of_run hrun hp j) (hrun j) with ⟨e', h⟩ | hlt
    · exact ⟨e', by rw [h, hjk]; rfl⟩
    · rw [hjk] at hlt
      exact absurd hlt (Nat.not_lt.2 (hleast (j + 1)))

/-- A weakly fair run does not go on for ever with a command pending: where the work is least an agent has some left, keeps it, and
gets its turn (R139). -/
theorem not_weaklyFair_of_pending : ¬ weaklyFair r := by
  intro hfair
  obtain ⟨k, hleast⟩ : ∃ k, ∀ j, (r k).workLeft ≤ (r j).workLeft :=
    ⟨_, fun j => Function.argmin_le (fun j => (r j).workLeft) j⟩
  obtain ⟨a, hw⟩ := (stalled_or_hasWork (hp k).engine (hp k).busy).resolve_left fun ⟨f, hf⟩ => (hp k).unstalled f hf
  have hstays : ∀ j, k ≤ j → hasWork a (r j) ∧ (r j).workLeft = (r k).workLeft := fun j hj => by
    obtain ⟨e, h⟩ := eq_setEnv_of_least_work hrun hp hleast hj
    exact h ▸ ⟨hw.setEnv e, rfl⟩
  obtain ⟨j, hj, hturn⟩ := hfair a k fun j hj => (hstays j hj).1.hasStep (hp j).busy
  have hlt := (hstays j hj).1.workLeft_lt (hp j).engine (hp j).busy (not_urgent_of_run hrun hp j) hturn (hrun j)
  rw [(hstays j hj).2] at hlt
  exact absurd hlt (Nat.not_lt.2 (hleast (j + 1)))

end

/-- Settles O51: were the command never Done it would be pending for ever, its work at its least from some state on, and the agent that
has some there would be starved. -/
theorem fairRunEnds : Obligations.FairRunEnds := by
  intro r hrun hfair hack _ hi hb hs
  by_contra hnever
  have hdone : ∀ k, (r k).seq.status ≠ .done := fun k hk => hnever ⟨k, hk⟩
  have hp : ∀ k, (r k).Pending := fun k => by
    induction k with
    | zero => exact ⟨hi, hb, hs⟩
    | succ k ih =>
      exact ih.of_step (not_urgent_of_steps_on ih.engine ih.busy (hrun k) (hrun (k + 1))) (hrun k) (hdone (k + 1))
        ((hack (k + 1)).trans (hack k).symm)
  exact not_weaklyFair_of_pending hrun hp hfair

end Sys2Proof.Machine
end

-- Family 70_reset_and_hazards.md, part three: what the caller reads, and the ends of a program's commands.
section
/-! What the caller may read of a state (R142), and the account of a program's commands (R141): at every step each of them has ended, is
in progress or is left to present. Obligations O60 and O52. -/

namespace Sys2Proof.Machine

/-! ### What the caller reads -/

theorem callerResult_of_singleRead_done {s : State} (hd : s.seq.status = .done) (hc : s.seq.cmd = .singleRead) :
    s.callerResult = s.seq.result := by
  simp [State.callerResult, hd, hc]

theorem callerResult_eq_none {s : State} (h : s.seq.status ≠ .done ∨ s.seq.cmd ≠ .singleRead) : s.callerResult = none := by
  unfold State.callerResult
  split
  next hd hc => simp [hd, hc] at h
  all_goals rfl

/-- Settles O60, by the two equations of the accessor. -/
theorem resultOnlyWhenDone : Obligations.ResultOnlyWhenDone :=
  fun _ => ⟨callerResult_of_singleRead_done, callerResult_eq_none⟩

/-! ### The step that is the end of a command -/

theorem commandEnd_of_done {s t : State} (ht : t.unmarked) (hb : s.seq.status = .busy) (hd : t.seq.status = .done) :
    commandEnd s t = some ⟨.done, t.callerResult⟩ := by
  simp only [commandEnd, if_pos ht, hb, hd]

theorem commandEnd_of_rejected {s t : State} {c : RejectCode} (ht : t.unmarked) (hb : s.seq.status ≠ .busy)
    (hc : t.seq.status = .rejected c) (hp : presentsCommand s t = true) : commandEnd s t = some ⟨.rejected c, none⟩ := by
  simp only [commandEnd, if_pos ht, hc, hp]
  cases hs : s.seq.status <;> simp_all

/-- A command that is admitted has not ended. -/
theorem commandEnd_of_admitted {s t : State} (hb : t.seq.status = .busy) : commandEnd s t = none := by
  unfold commandEnd
  split
  · cases hs : s.seq.status <;> simp [hb]
  · rfl

theorem presentsCommand_of_inbox_eq {s t : State} (h : t.env.inbox = s.env.inbox) : presentsCommand s t = false := by
  unfold presentsCommand
  split
  · rfl
  next x rest hx => simp [h, hx]

/-- Where neither the status nor the caller's list changes, no command ends. -/
theorem commandEnd_of_unchanged {s t : State} (hs : t.seq.status = s.seq.status) (hx : t.env.inbox = s.env.inbox) :
    commandEnd s t = none := by
  unfold commandEnd
  split
  · cases hst : s.seq.status <;> simp [hs, hst, presentsCommand_of_inbox_eq hx]
  · rfl

theorem ended_of_commandEnd {s t : State} {e : CommandEnd} (h : commandEnd s t = some e) :
    t.ended ∧ e.status = t.seq.status ∧ e.result = t.callerResult := by
  unfold commandEnd at h
  split at h
  next ht =>
    split at h
    next _ hd =>
      cases h
      exact ⟨⟨ht, .inl hd⟩, hd.symm, rfl⟩
    next => simp at h
    next c hc _ =>
      split at h
      · cases h
        exact ⟨⟨ht, .inr ⟨c, hc⟩⟩, hc.symm, (callerResult_eq_none (.inl (by simp [hc]))).symm⟩
      · simp at h
    next => simp at h
  next => simp at h

/-! ### One step of a program -/

/-- What a program has left: commands, each presented once the one before it has ended (R141). -/
structure State.Serial (s : State) : Prop where
  commands : s.onlyCommands
  waits    : ∀ x ∈ s.env.inbox, x.wait = true

/-- The commands that have not ended: the one in progress and those left to present. -/
def State.outstanding (s : State) : Nat := (if s.seq.status = .busy then 1 else 0) + s.env.inbox.length

theorem State.Serial.of_suffix {s t : State} (h : s.Serial) (hx : t.env.inbox <:+ s.env.inbox) : t.Serial :=
  ⟨fun x hm => h.commands x (hx.subset hm), fun x hm => h.waits x (hx.subset hm)⟩

theorem Moves.inbox_suffix {s t : State} {e : Env} (he : e.inbox = s.env.inbox) (h : Moves s t e) :
    t.env.inbox <:+ s.env.inbox := by
  rcases h.inbox_cases he with hx | ⟨x, hx, _⟩
  · rw [hx]
  · rw [hx]
    exact List.suffix_cons x _

/-- The caller's next command is admitted, or it ends at once by a rejection (R102, R140). -/
theorem Presented.account {s t : State} {x : Submission} {rest : List Submission} {e : Env}
    (h : Presented (s.setEnv { e with inbox := rest }) t) (hb : s.seq.status ≠ .busy) (hx : s.env.inbox = x :: rest)
    (hcmd : ∀ a, x.request ≠ .access a) (ht : t.unmarked) :
    (commandEnd s t).toList.length + t.outstanding = s.outstanding := by
  have hadmitted (hrest : t.env.inbox = rest) (hbusy : t.seq.status = .busy) :
      (commandEnd s t).toList.length + t.outstanding = s.outstanding := by
    simp [commandEnd_of_admitted hbusy, State.outstanding, hbusy, hb, hx, hrest, Nat.add_comm]
  cases h with
  | overlap hb' => exact absurd hb' hb
  | unbound | badRange => simp [State.unmarked] at ht
  | rejected _ c =>
    have hacc : isAccess x.request = false := Bool.eq_false_iff.2 fun ha => ((isAccess_iff _).1 ha).elim hcmd
    rw [commandEnd_of_rejected ht hb rfl (by simp [presentsCommand, hx, hacc])]
    simp [State.outstanding, hb, hx, Nat.add_comm]
  | read | write | burst => exact hadmitted rfl rfl

/-- At every step of a program each command has ended, is in progress, or is left. -/
theorem State.Serial.account {s t : State} (hs : s.Serial) (h : step s = .next t) (ht : t.unmarked) :
    (commandEnd s t).toList.length + t.outstanding = s.outstanding := by
  have hkept (hst : t.seq.status = s.seq.status) (hx : t.env.inbox = s.env.inbox) :
      (commandEnd s t).toList.length + t.outstanding = s.outstanding := by
    simp [commandEnd_of_unchanged hst hx, State.outstanding, hst, hx]
  obtain ⟨_, _, e, he, rfl | ⟨hb, hq⟩ | hc | ⟨x, rest, hx, hw, hrun⟩⟩ := step_next_cases h
  · exact hkept rfl he
  · have hx : t.env.inbox = s.env.inbox := (congrArg Env.inbox (sequencerStep_env_eq hq)).trans he
    rcases (sequencerStep_stepped hq).2.status_cases with hst | hd
    · exact hkept hst hx
    · simp [commandEnd_of_done ht hb hd, State.outstanding, hb, hd, hx]
  · exact hkept (congrArg Seq.status (controllerStep_stepped hc).seq_eq) ((controllerStep_inbox hc).trans he)
  · have hmem : x ∈ s.env.inbox := hx ▸ List.mem_cons_self
    have hb : s.seq.status ≠ .busy := hw.resolve_left fun ⟨hwait, _⟩ => by simp [hs.waits x hmem] at hwait
    exact (runRequest_presented hrun (hs.commands x hmem)).account hb hx (hs.commands x hmem) ht

/-! ### The run of a program -/

theorem runEnds_succ {k : Nat} {s t : State} {ends : List CommandEnd} (h : runEnds (k + 1) s = some (t, ends)) :
    ∃ u rest, step s = .next u ∧ runEnds k u = some (t, rest) ∧ ends = (commandEnd s u).toList ++ rest := by
  unfold runEnds at h
  split at h
  next u hu =>
    obtain ⟨⟨t', rest⟩, hrun, heq⟩ := Option.map_eq_some_iff.1 h
    cases heq
    exact ⟨u, rest, hu, hrun, rfl⟩
  all_goals simp at h

/-- A run that ends without a mark had none at its start (R121). -/
theorem unmarked_of_runEnds {k : Nat} {s t : State} {ends : List CommandEnd} (h : runEnds k s = some (t, ends))
    (ht : t.unmarked) : s.unmarked := by
  cases k with
  | zero =>
    cases h
    exact ht
  | succ k =>
    obtain ⟨u, _, hu, _⟩ := runEnds_succ h
    obtain ⟨hf, hr, _⟩ := step_next_unmarked hu
    exact ⟨hf, hr⟩

/-- The account over a run, step by step. -/
theorem State.Serial.run_account {k : Nat} {s t : State} {ends : List CommandEnd} (hs : s.Serial)
    (h : runEnds k s = some (t, ends)) (ht : t.unmarked) :
    t.env.inbox <:+ s.env.inbox ∧ ends.length + t.outstanding = s.outstanding := by
  induction k generalizing s ends with
  | zero =>
    cases h
    exact ⟨List.suffix_rfl, Nat.zero_add _⟩
  | succ k ih =>
    obtain ⟨u, rest, hu, hrun, rfl⟩ := runEnds_succ h
    obtain ⟨_, _, e, he, hm⟩ := step_next_cases hu
    have hx := hm.inbox_suffix he
    obtain ⟨hsuffix, hrest⟩ := ih (hs.of_suffix hx) hrun
    refine ⟨hsuffix.trans hx, ?_⟩
    rw [List.length_append, Nat.add_assoc, hrest]
    exact hs.account hu (unmarked_of_runEnds hrun ht)

/-! ### A loaded program -/

theorem loadProgram_serial {s : State} {cmds : List Request} (h : ∀ r ∈ cmds, ∀ a, r ≠ .access a) :
    (s.loadProgram cmds).Serial := by
  constructor <;> intro x hx <;> obtain ⟨r, hr, rfl⟩ := List.mem_map.1 hx
  · exact h r hr
  · rfl

theorem loadProgram_outstanding {s : State} (hb : s.seq.status ≠ .busy) (cmds : List Request) :
    (s.loadProgram cmds).outstanding = cmds.length := by
  simp [State.outstanding, State.loadProgram, hb]

theorem outstanding_of_programEnded {t : State} (h : t.programEnded) : t.outstanding = 0 := by
  obtain ⟨hx, _, hend⟩ := h
  have hb : t.seq.status ≠ .busy := by
    rcases hend with h | ⟨c, h⟩ <;> simp [h]
  simp [State.outstanding, hb, hx]

/-- Settles O52: a loaded program has all its commands outstanding, and one that has ended has none. -/
theorem programObserved : Obligations.ProgramObserved := by
  refine ⟨fun s cmds k t ends hb hcmds h ht => ?_, fun s t e => ended_of_commandEnd⟩
  obtain ⟨hsuffix, haccount⟩ := (loadProgram_serial hcmds).run_account h ht
  rw [loadProgram_outstanding hb] at haccount
  refine ⟨hsuffix, ?_, fun hend => ?_⟩
  · rw [← haccount, State.outstanding, Nat.add_assoc]
  · rwa [outstanding_of_programEnded hend] at haccount

end Sys2Proof.Machine
end

-- Family 70_reset_and_hazards.md, part four: reset.
section
/-! The values of R32 and R129 read off `State.reset`, and the hold after it; obligation O40. -/

namespace Sys2Proof.Machine

/-- With nothing to present and the controller Idle the machine waits (R10, R129). -/
theorem step_reset : step State.reset = .next State.reset :=
  holdKeepsState State.reset rfl rfl rfl (.inr ⟨nofun, rfl⟩)

/-- Settles O40, element by element. -/
theorem resetState : Obligations.ResetState :=
  ⟨rfl, rfl, rfl, rfl, rfl, rfl, rfl, rfl, rfl, rfl, rfl, rfl, rfl, rfl, rfl, rfl, rfl, rfl, step_reset⟩

end Sys2Proof.Machine
end
